-- ==== Sys2Proof/Word.lean ====
section
/-! DEFINITION. The word types of the ODV1-48A model, and nothing else (R13: bit 0 is the least
significant bit; multi-byte quantities are little-endian). -/

namespace Sys2Proof

/-- One byte. -/
abbrev Byte := BitVec 8

/-- A 32-bit register of BAR0, a scalar register of a thread, a detail word (R14, R40, R457). -/
abbrev Word := BitVec 32

/-- A 64-bit quantity: an instruction word, a seed, a doubled register (R17, R146). -/
abbrev Dword := BitVec 64

/-- One 64 B line of a cistern, one vector register, one mesh flit, one descriptor (R51, R61, R288). -/
abbrev Line := BitVec 512

end Sys2Proof
end

