-- ==== Sys2Proof/Syntax.lean ====
section
/-! DEFINITION. The commands of the ODV1-48A, one constructor per row of spec/opcode_table.json, and
the operand types they carry.  The table gives its rows no fields: the operands are chosen here so that
each row carries what its rule says the outside world supplies (log 1). -/

namespace Sys2Proof

/-- A logical team (column, row) of the 80 × 59 grid (R2, R34). -/
structure TeamId where
  col : Fin 80
  row : Fin 59
  deriving DecidableEq, Repr

/-- Core c0 to c63 of a team (R38). -/
structure CoreId where
  team : TeamId
  cx : Fin 64
  deriving DecidableEq, Repr

/-- Hardware thread 0 to 3 of a core (R42). -/
structure Thr where
  core : CoreId
  th : Fin 4
  deriving DecidableEq, Repr

/-- The fields of an instruction word beside its opcode (R146). -/
structure Fields where
  d : BitVec 5
  a : BitVec 5
  b : BitVec 5
  mod : BitVec 9
  imm : BitVec 32
  deriving DecidableEq, Repr

/-- What the SECDED code of a mesh flit finds on arrival (R69). -/
inductive Ecc where
  | good
  | single
  | double
  deriving DecidableEq, Repr

/-- What sends a mesh packet: a core, or a team's pump or sync memory (R58, R62, R189). -/
inductive MeshSrc where
  | core (c : CoreId)
  | pump (t : TeamId)
  | sync (t : TeamId)
  deriving DecidableEq, Repr

/-- A sluice of R432. -/
inductive Sluice where
  | core (c : CoreId)
  | team (t : TeamId)
  | pump (t : TeamId)
  deriving DecidableEq, Repr

/-- A doorbell line: of a ring pair, or of the event ring (R280, R299). -/
inductive Door where
  | pair (q : Fin 1024)
  | events
  deriving DecidableEq, Repr

/-- A place in BAR0, or in BAR2, that the MSI-X table fills (R277). -/
structure BarPlace where
  bar2 : Bool
  off : Nat
  deriving DecidableEq, Repr

/-- What a host's read asks for: `bytes` bytes from a place (R14, R277). -/
structure BarSpan where
  bar2 : Bool
  off : Nat
  bytes : Nat
  deriving DecidableEq, Repr

/-- A report that a detector outside the modelled commands drives to the collector in a BASE cycle
(R457): its source, class code and detail words, whether its rails were found equal for two cycles
(R458), and whether the detail transfer was uncorrectable. -/
structure Detect where
  source : Nat
  cls : Nat
  d0 : Word
  d1 : Word
  d2 : Word
  d3 : Word
  railBroken : Bool
  detailBad : Bool
  /-- For an `HBM_UE` of a page table, the journal, the token log or the prompt store: the slots whose entries or prompt
  tokens the failing 32 B holds (R97). -/
  sessions : List (Fin 16384)
  deriving DecidableEq, Repr

/-- The join message of a split part (R238), with the spanning and home masks it marks (R216). -/
structure JoinMsg where
  hash : BitVec 256
  peerHash : BitVec 256
  paddock : BitVec 6
  role : BitVec 16
  spanning : BitVec 256
  home : BitVec 256
  fromNode : BitVec 12
  deriving DecidableEq, Repr

/-- A join message as it arrives: with the hops that its packet took (R258). -/
structure JoinIn where
  msg : JoinMsg
  hops : Nat
  deriving DecidableEq, Repr

/-- `SESSION_PART` of the `ROLE` that a join message carries. -/
def JoinMsg.sessionPart (m : JoinMsg) : Bool := m.role.getLsbD 4

/-- An entry of a host chunk list, and whether the chunk that it names lies in host memory (R220, R292). -/
structure ChunkEntry where
  word : Dword
  inHost : Bool
  deriving DecidableEq, Repr

/-- One heater loop's new drive code and lock (R315, R316); index 144 j + 8 k + l - 1. -/
structure LoopSample where
  index : Nat
  drive : BitVec 16
  locked : Bool
  deriving DecidableEq, Repr

/-- The training parameters of one end: its replay mode, and its rule as `LINK_CFG.RULE` codes it (R353). -/
structure LinkParams where
  coalesced : Bool
  rule : Fin 4
  deriving DecidableEq, Repr

/-- A link: 0 to 31, that of a port; 32 + 16 p + w, the routed link on wavelength w of port p (R336, R380). -/
abbrev LinkNo := Fin 544

/-- What a migration request names beside the spare: the lane that holds the position, 18 where it is gone, and the position
(R328, R329). -/
structure MigrFrom where
  old : Fin 19
  pos : Fin 16
  deriving DecidableEq, Repr

/-- The run of a margin test: the errors counted at its steps, and the figure of merit at step 0 in 0.01 dB (R323, R326). -/
structure MarginRun where
  errs : List Nat
  fom0 : Int
  deriving DecidableEq, Repr

/-- The directions of a calibrated wavelength that failed under R317 or R318 (R332, R334). -/
structure CalFail where
  tx : Bool
  rx : Bool
  deriving DecidableEq, Repr

/-- A frame of a die-to-die lane of one direction: 16 data unit intervals and the parity unit interval (R362). -/
structure D2dFrame where
  up : Bool
  data : BitVec 16
  parity : Bool
  deriving DecidableEq, Repr

/-- A control message of the link (R352).  The manual gives no encoding of its 30 bytes, so the
message is carried decoded (log 1). -/
inductive CtlMsg where
  /-- The lanes that the sender has put in service in its receive direction, in position order (R322, R324). -/
  | laneMap (lanes : List Nat)
  /-- The receiver claims a spare for a position: the lane that holds it (18: none), the spare, the position (R328, R329). -/
  | migrate (old spare pos : Nat)
  /-- The transmitter asks its receiver to move a lane's position away: for a loop at its limit, or for a calibration of the
  wavelength (R317, R332; log 127). -/
  | away (k : Nat) (cal : Bool)
  /-- A boundary of the sender's receive or transmit direction: the lane that leaves (18: none), the spare that takes its position
  (18: none), the flit count, and the spare's live margin (R319, R328, R354). -/
  | boundary (rx : Bool) (old spare count live : Nat)
  /-- A lane of the sender's receive or transmit direction has become a spare: what the lane map says of it (R318, R330; log 127). -/
  | spare (rx : Bool) (k : Nat)
  /-- A lane of the sender's receive direction has been withdrawn after a loss of lock (R354). -/
  | withdraw (k : Nat)
  /-- The sender's transmit direction goes to sleep, and the `DEEP_IDLE` after which it goes to deep sleep, where it may
  (R359). -/
  | sleep (deep : Option Nat)
  | wake
  | down
  | rttEcho
  | params (p : LinkParams)
  deriving DecidableEq, Repr

/-- A flit as received (R341): the header word, the 240 payload bytes, the CRC word, and the control
messages and echoes that a control flit's payload spells. -/
structure Flit where
  header : Dword
  payload : List Byte
  crc : Dword
  ctl : List (Byte × CtlMsg)
  echoes : List Byte
  deriving DecidableEq, Repr

/-- The payload of a HELLO (R370). -/
structure HelloPkt where
  serial : Dword
  planeB : Bool
  port : Nat
  node : Option (BitVec 12)
  master : Bool
  routed : Option (Fin 16)
  wave : Fin 16
  deriving DecidableEq, Repr

/-- A REPORT of discovery (R373): the reporter, its stored ID, the hops taken, the serial numbers of its neighbours, and one record
per port or routed link: the port, and the record's word (log 134). -/
structure ReportPkt where
  serial : Dword
  node : Option (BitVec 12)
  hops : Nat
  isMaster : Bool
  epoch : BitVec 16
  nbrs : List Dword
  ports : List (Nat × Word)
  deriving DecidableEq, Repr

/-- A TABLE of discovery (R373, R376 to R378, R380): destination entries, turn masks (index
64 × vc + input) and link select entries (index 4096 × port + destination). -/
structure TablePkt where
  target : Dword
  epoch : BitVec 16
  modules : Nat
  dest : List (Nat × Word)
  turn : List (Nat × Word)
  rlink : List (Nat × BitVec 5)
  id : Option (BitVec 12)
  deriving DecidableEq, Repr

/-- What a transport message asks (R200, R238, R239, R389). -/
inductive TMsg where
  | barrierArrive (paddock barrier : Nat)
  | barrierRelease (paddock barrier : Nat)
  | join (paddock : Nat) (m : JoinMsg)
  | draining (paddock : Nat)
  | served (paddock : Nat)
  | crossing (paddock bytes : Nat)
  | noContext
  | done
  deriving DecidableEq, Repr

/-- A fabric packet (R368) of type REQUEST or RESPONSE. -/
structure FabPkt where
  dst : BitVec 12
  src : BitVec 12
  hops : BitVec 4
  res : Bool
  flow : BitVec 13
  retry : BitVec 3
  txid : Word
  ecrcOk : Bool
  msg : TMsg
  deriving DecidableEq, Repr

/-- A reservation request or its answer on one hop (R386); rates in 0.1 GB/s; an answer carries the hops of the path. -/
structure ResvPkt where
  flow : BitVec 13
  dst : BitVec 12
  src : BitVec 12
  rate : Nat
  release : Bool
  answer : Option Bool
  hops : Nat
  deriving DecidableEq, Repr

/-- A heartbeat: a transition on the wire, or a packet on the pair link (R401, R402). -/
inductive Beat where
  | wire
  | packet (serial : Dword) (role : Nat) (fast armed : Bool) (epoch : Word)
  deriving DecidableEq, Repr

/-- One mirror item (R403). -/
structure MirrorItem where
  kind : Nat
  slot : Nat
  arg : Dword
  data : List Byte
  deriving DecidableEq, Repr

/-- The commit record of a batch (R404), with the item bytes' measured length and CRC-32C. -/
structure CommitRec where
  mepoch : Dword
  actTime : Dword
  items : Nat
  bytes : Nat
  resyncEnd : Bool
  crc : Word
  deriving DecidableEq, Repr

/-- The commands.  The docstring of each constructor names its row and the rule the row cites. -/
inductive Instr where
  /-- `ADD` (R151). -/
  | add (t : Thr) (x : Fields)
  /-- `SUB` (R151). -/
  | sub (t : Thr) (x : Fields)
  /-- `AND` (R151). -/
  | andOp (t : Thr) (x : Fields)
  /-- `OR` (R151). -/
  | orOp (t : Thr) (x : Fields)
  /-- `XOR` (R151). -/
  | xor (t : Thr) (x : Fields)
  /-- `SHL` (R151). -/
  | shl (t : Thr) (x : Fields)
  /-- `SHR` (R151). -/
  | shr (t : Thr) (x : Fields)
  /-- `SRA` (R151). -/
  | sra (t : Thr) (x : Fields)
  /-- `SLT` (R151). -/
  | slt (t : Thr) (x : Fields)
  /-- `SLTU` (R151). -/
  | sltu (t : Thr) (x : Fields)
  /-- `MUL` (R151). -/
  | mul (t : Thr) (x : Fields)
  /-- `MULH` (R151). -/
  | mulh (t : Thr) (x : Fields)
  /-- `MULHU` (R151). -/
  | mulhu (t : Thr) (x : Fields)
  /-- `MIN` (R151). -/
  | minOp (t : Thr) (x : Fields)
  /-- `MAX` (R151). -/
  | maxOp (t : Thr) (x : Fields)
  /-- `ADDI` (R151). -/
  | addi (t : Thr) (x : Fields)
  /-- `SUBI` (R151). -/
  | subi (t : Thr) (x : Fields)
  /-- `ANDI` (R151). -/
  | andi (t : Thr) (x : Fields)
  /-- `ORI` (R151). -/
  | ori (t : Thr) (x : Fields)
  /-- `XORI` (R151). -/
  | xori (t : Thr) (x : Fields)
  /-- `SHLI` (R151). -/
  | shli (t : Thr) (x : Fields)
  /-- `SHRI` (R151). -/
  | shri (t : Thr) (x : Fields)
  /-- `SRAI` (R151). -/
  | srai (t : Thr) (x : Fields)
  /-- `SLTI` (R151). -/
  | slti (t : Thr) (x : Fields)
  /-- `SLTUI` (R151). -/
  | sltui (t : Thr) (x : Fields)
  /-- `MULI` (R151). -/
  | muli (t : Thr) (x : Fields)
  /-- `MULHI` (R151). -/
  | mulhi (t : Thr) (x : Fields)
  /-- `MULHUI` (R151). -/
  | mulhui (t : Thr) (x : Fields)
  /-- `MINI` (R151). -/
  | mini (t : Thr) (x : Fields)
  /-- `MAXI` (R151). -/
  | maxi (t : Thr) (x : Fields)
  /-- `BEQ` (R152). -/
  | beq (t : Thr) (x : Fields)
  /-- `BNE` (R152). -/
  | bne (t : Thr) (x : Fields)
  /-- `BLT` (R152). -/
  | blt (t : Thr) (x : Fields)
  /-- `BGE` (R152). -/
  | bge (t : Thr) (x : Fields)
  /-- `BLTU` (R152). -/
  | bltu (t : Thr) (x : Fields)
  /-- `BGEU` (R152). -/
  | bgeu (t : Thr) (x : Fields)
  /-- `JAL` (R152). -/
  | jal (t : Thr) (x : Fields)
  /-- `JALR` (R152). -/
  | jalr (t : Thr) (x : Fields)
  /-- `LD` (R153). -/
  | ld (t : Thr) (x : Fields)
  /-- `ST` (R153). -/
  | st (t : Thr) (x : Fields)
  /-- `LDV` (R153). -/
  | ldv (t : Thr) (x : Fields)
  /-- `STV` (R153). -/
  | stv (t : Thr) (x : Fields)
  /-- `STRM` (R154). -/
  | strm (t : Thr) (x : Fields)
  /-- `VADD` (R155). -/
  | vadd (t : Thr) (x : Fields)
  /-- `VSUB` (R155). -/
  | vsub (t : Thr) (x : Fields)
  /-- `VMUL` (R155). -/
  | vmul (t : Thr) (x : Fields)
  /-- `VFMA` (R155). -/
  | vfma (t : Thr) (x : Fields)
  /-- `VMIN` (R155). -/
  | vmin (t : Thr) (x : Fields)
  /-- `VMAX` (R155). -/
  | vmax (t : Thr) (x : Fields)
  /-- `VCMP` (R155). -/
  | vcmp (t : Thr) (x : Fields)
  /-- `VAND` (R155). -/
  | vand (t : Thr) (x : Fields)
  /-- `VOR` (R155). -/
  | vor (t : Thr) (x : Fields)
  /-- `VXOR` (R155). -/
  | vxor (t : Thr) (x : Fields)
  /-- `VSEL` (R155). -/
  | vsel (t : Thr) (x : Fields)
  /-- `VBCAST` (R155). -/
  | vbcast (t : Thr) (x : Fields)
  /-- `VEXT` (R155). -/
  | vext (t : Thr) (x : Fields)
  /-- `VINS` (R155). -/
  | vins (t : Thr) (x : Fields)
  /-- `VSUM` (R156). -/
  | vsum (t : Thr) (x : Fields)
  /-- `VMAXR` (R155). -/
  | vmaxr (t : Thr) (x : Fields)
  /-- `DOT` (R161). -/
  | dot (t : Thr) (x : Fields)
  /-- `ACLR` (R163). -/
  | aclr (t : Thr) (x : Fields)
  /-- `ARD` (R164). -/
  | ard (t : Thr) (x : Fields)
  /-- `ARDV` (R164). -/
  | ardv (t : Thr) (x : Fields)
  /-- `AGET` (R165). -/
  | aget (t : Thr) (x : Fields)
  /-- `CVT` (R158). -/
  | cvt (t : Thr) (x : Fields)
  /-- `CVTMX` (R159). -/
  | cvtmx (t : Thr) (x : Fields)
  /-- `VEXP` (R157). -/
  | vexp (t : Thr) (x : Fields)
  /-- `VRCP` (R157). -/
  | vrcp (t : Thr) (x : Fields)
  /-- `VRSQ` (R157). -/
  | vrsq (t : Thr) (x : Fields)
  /-- `VSIG` (R157). -/
  | vsig (t : Thr) (x : Fields)
  /-- `VSILU` (R157). -/
  | vsilu (t : Thr) (x : Fields)
  /-- `RWR` (R167). -/
  | rwr (t : Thr) (x : Fields)
  /-- `RWRV` (R167). -/
  | rwrv (t : Thr) (x : Fields)
  /-- `RRD` (R168). -/
  | rrd (t : Thr) (x : Fields)
  /-- `RRDV` (R168). -/
  | rrdv (t : Thr) (x : Fields)
  /-- `PUMP` (R170). -/
  | pump (t : Thr) (x : Fields)
  /-- `SADD` (R187). -/
  | sadd (t : Thr) (x : Fields)
  /-- `SSUB` (R187). -/
  | ssub (t : Thr) (x : Fields)
  /-- `WAITGE` (R187). -/
  | waitge (t : Thr) (x : Fields)
  /-- `TAKE` (R187). -/
  | take (t : Thr) (x : Fields)
  /-- `FENCE` (R173). -/
  | fence (t : Thr) (x : Fields)
  /-- `ARRIVE` (R174). -/
  | arrive (t : Thr) (x : Fields)
  /-- `NOP` (R175). -/
  | nop (t : Thr) (x : Fields)
  /-- `HALT` (R175). -/
  | halt (t : Thr) (x : Fields)
  /-- `TSTART` (R175). -/
  | tstart (t : Thr) (x : Fields)
  /-- `MFSR` (R175). -/
  | mfsr (t : Thr) (x : Fields)
  /-- `MTSR` (R175). -/
  | mtsr (t : Thr) (x : Fields)
  /-- `TRAP` (R175). -/
  | trap (t : Thr) (x : Fields)
  /-- `MESH_REMOTE_WRITE` (R62). -/
  | meshRemoteWrite (src : MeshSrc) (dst : TeamId) (e : Ecc)
  /-- `MESH_REMOTE_READ_REQUEST` (R62). -/
  | meshRemoteReadRequest (src : MeshSrc) (dst : TeamId) (e : Ecc)
  /-- `MESH_READ_RESPONSE` (R62). -/
  | meshReadResponse (src : MeshSrc) (dst : TeamId) (e : Ecc)
  /-- `MESH_WRITE_ACK` (R62). -/
  | meshWriteAck (src : MeshSrc) (dst : TeamId) (e : Ecc)
  /-- `SEMAPHORE_OPERATION_PACKET` (R183). -/
  | semaphoreOperationPacket (src : MeshSrc) (dst : TeamId) (e : Ecc)
  /-- `WAIT_RETRY_RESEND` (R189). -/
  | waitRetryResend (t : Thr)
  /-- `WAIT_TIMEOUT` (R190). -/
  | waitTimeout (t : Thr)
  /-- `WAIT_CANCEL_ARRIVAL` (R190). -/
  | waitCancelArrival (t : Thr)
  /-- `PUMP_COMMAND_COMPLETE` (R58). -/
  | pumpCommandComplete (k : TeamId)
  /-- `SAMPLER_INPUT_LINE` (R267). -/
  | samplerInputLine (k : TeamId)
  /-- `SCRUB_REQUEST` (R83). -/
  | scrubRequest (c : CoreId)
  /-- `CORE_NAP` (R204). -/
  | coreNap (c : CoreId)
  /-- `PUMP_SLUICE_CLOSE` (R432). -/
  | pumpSluiceClose (k : TeamId)
  /-- `SLUICE_TIMEOUT` (R433). -/
  | sluiceTimeout (u : Sluice)
  /-- `STEP_START` (R180). -/
  | stepStart (p : Fin 64)
  /-- `STEP_COMMIT` (R265). -/
  | stepCommit (p : Fin 64)
  /-- `DOORBELL_INVALIDATION` (R281). -/
  | doorbellInvalidation (d : Door)
  /-- `DOORBELL_REREAD_RETURN` (R281). -/
  | doorbellRereadReturn (d : Door) (tail cqHead rqHead : Word)
  /-- `DOORBELL_POLL` (R282). -/
  | doorbellPoll
  /-- `DESCRIPTOR_FETCH` (R284). -/
  | descriptorFetch (q : Fin 1024) (d : Line)
  /-- `SESSION_OPEN` (R244). -/
  | sessionOpen (q : Fin 1024)
  /-- `SESSION_CLOSE` (R246). -/
  | sessionClose (q : Fin 1024)
  /-- `SESSION_CLOSE_DONE` (R246). -/
  | sessionCloseDone (n : Fin 16384)
  /-- `TURN` (R250). -/
  | turn (q : Fin 1024) (prompt : Option (List Word))
  /-- `TURN_ADMISSION` (R255). -/
  | turnAdmission (q : Fin 1024) (pages : List (Option (List Byte)))
  /-- `MODEL_STAGE_STAGE` (R221). -/
  | modelStageStage (q : Fin 1024) (list : List (Option ChunkEntry)) (first : Option (List Byte))
  /-- `STAGE_COPY_DONE` (R221). -/
  | stageCopyDone (n : Fin 1024) (chunks : List (Option (List Byte)))
  /-- `MODEL_STAGE_RELEASE` (R222). -/
  | modelStageRelease (q : Fin 1024)
  /-- `PADDOCK_LOAD` (R228). -/
  | paddockLoad (q : Fin 1024)
  /-- `PADDOCK_LOAD_DONE` (R228). -/
  | paddockLoadDone (p : Fin 64)
  /-- `PADDOCK_UNLOAD_DRAIN` (R237). -/
  | paddockUnloadDrain (q : Fin 1024)
  /-- `PADDOCK_UNLOAD_DONE` (R237). -/
  | paddockUnloadDone (p : Fin 64)
  /-- `PADDOCK_UNLOAD_RESTART` (R234). -/
  | paddockUnloadRestart (q : Fin 1024)
  /-- `GAIT_SET` (R438). -/
  | gaitSet (q : Fin 1024)
  /-- `CAL_REQUEST` (R331). -/
  | calRequest (q : Fin 1024)
  /-- `CAL_DONE` (R332). -/
  | calDone (p : Fin 32) (fail : CalFail) (tx rx : MarginRun)
  /-- `SELFTEST_TEAMS` (R475). -/
  | selftestTeams (q : Fin 1024)
  /-- `SELFTEST_START` (R475). -/
  | selftestStart (id : Nat)
  /-- `SELFTEST_HBM` (R476). -/
  | selftestHbm (q : Fin 1024)
  /-- `SELFTEST_DONE` (R477). -/
  | selftestDone (id : Nat) (bad : List Nat)
  /-- `FENCE_DESCRIPTOR` (R293). -/
  | fenceDescriptor (q : Fin 1024)
  /-- `FENCE_DESCRIPTOR_DONE` (R293). -/
  | fenceDescriptorDone (q : Fin 1024)
  /-- `NOP_DESCRIPTOR` (R293). -/
  | nopDescriptor (q : Fin 1024)
  /-- `MSIX_MODERATION_TIMEOUT` (R301). -/
  | msixModerationTimeout (v : Fin 2048)
  /-- `MSIX_UNMASK` (R301). -/
  | msixUnmask (v : Fin 2048)
  /-- `RING_ENABLE` (R302). -/
  | ringEnable (w : Word)
  /-- `RING_DRAIN` (R303). -/
  | ringDrain (w : Word)
  /-- `RING_DISABLED` (R303). -/
  | ringDisabled (q : Fin 1024)
  /-- `EVT_ENABLE` (R427). -/
  | evtEnable (w : Word)
  /-- `HOSTIF_RESET` (R304). -/
  | hostifReset (w : Word)
  /-- `FUNCTION_LEVEL_RESET` (R278). -/
  | functionLevelReset
  /-- `CXL_LINK_RETRAIN` (R278). -/
  | cxlLinkRetrain (x8 : Bool)
  /-- `CXL_MEM_READ` (R103). -/
  | cxlMemRead (off : Nat)
  /-- `CXL_MEM_WRITE` (R98). -/
  | cxlMemWrite (off : Nat) (data : List Byte) (poison : Bool)
  /-- `IDE_KM_MESSAGE` (R497). -/
  | ideKmMessage (io : Bool) (active : Bool)
  /-- `GET_IDENTITY` (R495). -/
  | getIdentity
  /-- `GET_REPORT` (R494). -/
  | getReport (nonce : BitVec 256)
  /-- `SIGNING_HOLD_TIMEOUT` (R492). -/
  | signingHoldTimeout
  /-- `DEBUG_CHALLENGE` (R495). -/
  | debugChallenge
  /-- `DEBUG_UNLOCK` (R496). -/
  | debugUnlock (sig : List Byte)
  /-- `POLICY_PROGRAM` (R484). -/
  | policyProgram (w : Word) (blown : Bool)
  /-- `LIFECYCLE_ADVANCE` (R483). -/
  | lifecycleAdvance (w : Word) (blown : Bool)
  /-- `STORE_COMMIT` (R500). -/
  | storeCommit (w : Word)
  /-- `STORE_RESERVE` (R492). -/
  | storeReserve (w : Word)
  /-- `STORE_CLEAR_LOG` (R500). -/
  | storeClearLog (w : Word)
  /-- `STORE_COMMAND_DONE` (R501). -/
  | storeCommandDone (readBackOk : Bool)
  /-- `FIRMWARE_UPDATE_GO` (R489). -/
  | firmwareUpdateGo (w : Word) (bundle : List Byte)
  /-- `FIRMWARE_UPDATE_DONE` (R489). -/
  | firmwareUpdateDone (readBackOk : Bool)
  /-- `ARB_COMMIT` (R488). -/
  | arbCommit (w : Word)
  /-- `SYNCDBG_POKE_SET` (R209). -/
  | syncdbgPokeSet (w : Word)
  /-- `SYNCDBG_POKE_ADD` (R209). -/
  | syncdbgPokeAdd (w : Word)
  /-- `SYNCDBG_POKE_SUBTRACT` (R209). -/
  | syncdbgPokeSubtract (w : Word)
  /-- `RESOLVE` (R211). -/
  | resolve (w : Word)
  /-- `PACE_APPLY` (R248). -/
  | paceApply (w : Word)
  /-- `SESS_SEL_CAPTURE` (R273). -/
  | sessSelCapture (w : Word)
  /-- `MEM_RETIRE_ADD` (R100). -/
  | memRetireAdd (w : Word)
  /-- `SPILL_ENABLE` (R111). -/
  | spillEnable (w : Word) (list : List Dword)
  /-- `RECALL` (R112). -/
  | recall (w : Word) (pages : List (Option (List Byte)))
  /-- `SESSION_SPILL` (R108). -/
  | sessionSpill (n : Fin 16384)
  /-- `HBM_POOL_ZEROING` (R90). -/
  | hbmPoolZeroing (seg : Nat)
  /-- `HBM_PATROL_SCRUB` (R99). -/
  | hbmPatrolScrub (seg : Nat)
  /-- `FAULT_REPORT` (R460). -/
  | faultReport (ext : List Detect)
  /-- `FATAL_RECORD_STORE` (R471). -/
  | fatalRecordStore
  /-- `PROMOTION_SECOND_ROLLOVER` (R465). -/
  | promotionSecondRollover
  /-- `FAULT_WINDOW_EXPIRY` (R467). -/
  | faultWindowExpiry (n : Word)
  /-- `FAULT_ACK_DEFAULT` (R467). -/
  | faultAckDefault (w : Word)
  /-- `FAULT_ACK_RESET` (R467). -/
  | faultAckReset (w : Word)
  /-- `FAULT_ACK_FORCE_OFF` (R468). -/
  | faultAckForceOff (w : Word)
  /-- `FAULT_FIRST_CLR` (R461). -/
  | faultFirstClr (w : Word)
  /-- `FAULT_INJ_ARM` (R472). -/
  | faultInjArm (w : Word)
  /-- `FAULT_FLOG_DATA_READ` (R481). -/
  | faultFlogDataRead
  /-- `WIDE_REGISTER_LOW_READ` (R17): a host read of bytes of BAR0, or of BAR2. -/
  | wideRegisterLowRead (off : BarSpan)
  /-- `REGISTER_WRITE` (R18): a host write at an offset of BAR0, or of BAR2. -/
  | registerWrite (off : BarPlace) (data : List Byte)
  /-- `PADDOCK_QUIET` (R233). -/
  | paddockQuiet (p : Fin 64)
  /-- `PADDOCK_RESTORE_DONE` (R233). -/
  | paddockRestoreDone (p : Fin 64)
  /-- `PADDOCK_WARM_RESTORE` (R236). -/
  | paddockWarmRestore (p : Fin 64)
  /-- `SPLIT_JOIN_MESSAGE` (R238). -/
  | splitJoinMessage (p : Fin 64) (m : JoinIn)
  /-- `SPLIT_JOIN_REPEAT` (R238). -/
  | splitJoinRepeat (p : Fin 64)
  /-- `GOVERNOR_PERIOD` (R440). -/
  | governorPeriod
  /-- `DOMAIN_RAMP_DONE` (R436). -/
  | domainRampDone (d : Fin 16) (milliVolt : Nat)
  /-- `CLK_STOPPED_SOURCE` (R431). -/
  | clkStoppedSource (p : Fin 64)
  /-- `GAIT_MODULE_W_WRITE` (R439). -/
  | gaitModuleWWrite (w : Word)
  /-- `TEMPERATURE_SAMPLE` (R444). -/
  | temperatureSample (m : Fin 560) (code : Int) (railsAgree : Bool) (moved : Bool)
  /-- `OE_OVERTEMP_RESTART` (R448). -/
  | oeOvertempRestart (n : Fin 8)
  /-- `THERM_MASK_CMD` (R447). -/
  | thermMaskCmd (w : Word)
  /-- `INPUT_POWER_SAMPLE` (R449). -/
  | inputPowerSample (milliVolt tenMilliAmp deciWatt : Nat)
  /-- `VDOM_FAULT` (R436). -/
  | vdomFault (d : Fin 16) (milliVolt : Nat)
  /-- `POWER_ON` (R522). -/
  | powerOn
  /-- `POWER_REMOVED` (R523). -/
  | powerRemoved
  /-- `RESET_CTRL_WARM` (R423). -/
  | resetCtrlWarm (w : Word)
  /-- `RESET_CTRL_COLD` (R421). -/
  | resetCtrlCold (w : Word)
  /-- `PERST_ASSERT` (R422). -/
  | perstAssert
  /-- `PERST_DEASSERT` (R422). -/
  | perstDeassert
  /-- `ROOT_LOCK` (R429). -/
  | rootLock
  /-- `REF_LOST` (R430). -/
  | refLost
  /-- `PLL_UNLOCK` (R430). -/
  | pllUnlock
  /-- `HOLDOVER_END` (R430). -/
  | holdoverEnd
  /-- `UNIT_READY` (R426). -/
  | unitReady (f : Fin 9) (u : Nat)
  /-- `UNIT_NOT_READY` (R426). -/
  | unitNotReady (f : Fin 9) (u : Nat)
  /-- `PILOT_TONE_WINDOW` (R310). -/
  | pilotToneWindow (n : Fin 8) (f : Fin 2) (tones : List (Option Nat)) (wrong : List Nat)
  /-- `LASER_POWER_MEASURE` (R311). -/
  | laserPowerMeasure (n : Fin 8) (f : Fin 2) (power : List (Option Int))
  /-- `SPARE_STAT_POLL` (R313). -/
  | spareStatPoll (k : Fin 18) (answers : List (Option (List Byte)))
  /-- `LASER_SIDEBAND_TRANSACTION` (R312). -/
  | laserSidebandTransaction (cmd arg : Byte) (answers : List (Option (List Byte)))
  /-- `LOOP_UPDATE` (R316). -/
  | loopUpdate (n : Fin 8) (loops : List LoopSample)
  /-- `LOOP_LIMIT` (R317). -/
  | loopLimit (n : Fin 8) (loop : Fin 576)
  /-- `RING_SWEEP_DONE` (R318). -/
  | ringSweepDone (p : Fin 32) (rx : Bool) (k : Fin 18) (locked : Bool)
  /-- `PORT_START` (R322). -/
  | portStart (p : Fin 32)
  /-- `PORT_START_TIMEOUT` (R322). -/
  | portStartTimeout (p : Fin 32)
  /-- `MARGIN_TEST_DONE` (R323). -/
  | marginTestDone (p : Fin 32) (rx : Bool) (k : Fin 18) (errs : List Nat) (fom0 : Int)
  /-- `LIVE_MARGIN_ESTIMATE` (R327). -/
  | liveMarginEstimate (p : Fin 32) (k : Fin 18) (fom : Int)
  /-- `MIGRATION_REQUEST` (R328). -/
  | migrationRequest (p : Fin 32) (from_ : MigrFrom) (spare : Fin 18)
  /-- `SPARE_TRAINING_DONE` (R328). -/
  | spareTrainingDone (p : Fin 32) (spare : Fin 18) (errs : Nat) (fom : Int)
  /-- `FLIT_BOUNDARY_SWITCH` (R354). -/
  | flitBoundarySwitch (p : Fin 32) (rx : Bool)
  /-- `LOSS_OF_LOCK` (R329). -/
  | lossOfLock (p : Fin 32) (k : Fin 18)
  /-- `OE_RESET` (R325). -/
  | oeReset (n : Fin 8) (w : Word)
  /-- `CAL_SNAPSHOT` (R339). -/
  | calSnapshot (n : Fin 8) (w : Word)
  /-- `FLIT_RECEIVE` (R347). -/
  | flitReceive (l : LinkNo) (f : Flit)
  /-- `REPLAY_TIMEOUT` (R349). -/
  | replayTimeout (l : LinkNo)
  /-- `ACK_COALESCE_TIMEOUT` (R348). -/
  | ackCoalesceTimeout (l : LinkNo)
  /-- `CREDIT_RETURN_TIMEOUT` (R351). -/
  | creditReturnTimeout (l : LinkNo) (vc : Bool)
  /-- `CONTROL_MESSAGE_REPEAT` (R352). -/
  | controlMessageRepeat (l : LinkNo) (seq : Byte)
  /-- `LINK_TRAINING` (R353). -/
  | linkTraining (l : LinkNo) (rtts : List Nat) (far : LinkParams)
  /-- `LINK_DOWN` (R357). -/
  | linkDown (l : LinkNo)
  /-- `LOCK_RULE_HOLD_EXPIRY` (R356). -/
  | lockRuleHoldExpiry (p : Fin 32)
  /-- `ERROR_RATE_WINDOW` (R356). -/
  | errorRateWindow (l : LinkNo) (codewords uncorrectable corrected start : Nat)
  /-- `PORT_DOWN_WRITE` (R365). -/
  | portDownWrite (p : Fin 32) (w : Word)
  /-- `LIGHT_SLEEP_ENTRY` (R359). -/
  | lightSleepEntry (l : LinkNo)
  /-- `DEEP_SLEEP_ENTRY` (R359). -/
  | deepSleepEntry (l : LinkNo)
  /-- `SLEEP_WAKE` (R358). -/
  | sleepWake (l : LinkNo)
  /-- `DEEP_SLEEP_RETRACK` (R358). -/
  | deepSleepRetrack (l : LinkNo)
  /-- `ADAPTATION_STEP` (R361). -/
  | adaptationStep (p : Fin 32) (k : Fin 18) (before after : Int)
  /-- `LANE_FLOOR_RETRAIN` (R361). -/
  | laneFloorRetrain (p : Fin 32) (k : Fin 18)
  /-- `D2D_PARITY` (R363). -/
  | d2dParity (n : Fin 8) (f : D2dFrame)
  /-- `HELLO_TIMER` (R370). -/
  | helloTimer (l : LinkNo)
  /-- `HELLO` (R371). -/
  | hello (l : LinkNo) (h : HelloPkt)
  /-- `FABRIC_DISCOVER_WRITE` (R372). -/
  | fabricDiscoverWrite (w : Word)
  /-- `DISCOVER` (R373). -/
  | discover (l : LinkNo) (master : Dword) (epoch : BitVec 16)
  /-- `REPORT` (R373). -/
  | reportMsg (l : LinkNo) (r : ReportPkt)
  /-- `DISCOVERY_QUIET_EXPIRY` (R374). -/
  | discoveryQuietExpiry (plan : List TablePkt)
  /-- `ASSIGN` (R374). -/
  | assignMsg (l : LinkNo) (target : Dword) (id : BitVec 12)
  /-- `TABLE` (R373). -/
  | tableMsg (l : LinkNo) (t : TablePkt)
  /-- `COMMIT` (R373). -/
  | commitMsg (l : LinkNo) (epoch : BitVec 16)
  /-- `PORT_STATE_REPORT` (R376). -/
  | portStateReport (p : Fin 32)
  /-- `REQUEST` (R383). -/
  | requestMsg (l : LinkNo) (k : FabPkt)
  /-- `RESPONSE` (R382). -/
  | responseMsg (l : LinkNo) (k : FabPkt)
  /-- `TRANSPORT_RESEND` (R382). -/
  | transportResend (flow : Fin 8192) (txid : Word)
  /-- `TRANSPORT_LOST` (R382). -/
  | transportLost (flow : Fin 8192)
  /-- `RESV` (R386). -/
  | resv (l : LinkNo) (r : ResvPkt)
  /-- `HEARTBEAT_TIMER` (R401). -/
  | heartbeatTimer
  /-- `HEARTBEAT` (R407). -/
  | heartbeat (h : Beat)
  /-- `HEARTBEAT_SILENCE` (R401). -/
  | heartbeatSilence (wire link : Bool)
  /-- `HALTER_LINE_CHANGE` (R398). -/
  | halterLineChange (railP railN : Bool)
  /-- `HALTER_BROKEN` (R399). -/
  | halterBroken
  /-- `HALTER_WHOLE` (R399). -/
  | halterWhole
  /-- `MIRROR` (R405). -/
  | mirror (items : List MirrorItem) (commit : CommitRec)
  /-- `MIRROR_ACK` (R407). -/
  | mirrorAck (epoch : Dword)
  /-- `MIRROR_ACK_TIMEOUT` (R408). -/
  | mirrorAckTimeout
  /-- `PAIR_CTL` (R402). -/
  | pairCtl (code : Word)
  /-- `RESYNC` (R406). -/
  | resync (w : Word)
  /-- `TAKEOVER_PHASE_DONE` (R411). -/
  | takeoverPhaseDone (phase : Fin 6)
  /-- `MI3C_REGISTER_READ` (R516). -/
  | mi3cRegisterRead (off : Nat)
  /-- `MI3C_ENTDAA` (R516). -/
  | mi3cEntdaa (addr : BitVec 7)
  /-- `REFCLK_START` (R429). -/
  | refclkStart
  /-- `HOSTIF_RESET_DONE` (R308). -/
  | hostifResetDone
  /-- `TRAINING_TIMEOUT` (R356). -/
  | trainingTimeout (l : LinkNo)
  /-- `RELEASE_REPLY` (R179). -/
  | releaseReply (t : Thr)
  deriving DecidableEq, Repr

end Sys2Proof
end

