-- ==== Sys2Proof/Decode.lean ====
section
/-! DEFINITION. The words of the core instructions (R146, R150), and the command that a table word spells.  The opcode table gives
its rows no bits, so no table word spells a command. -/

namespace Sys2Proof

/-- The command that a word of `nbits` bits spells by the table's bits: the table gives none. -/
def decodeTableWord (_nbits _w : Nat) : Option Instr := none

/-- The fields of an instruction word (R146). -/
def wordFields (w : Dword) : Fields :=
  { d := w.extractLsb' 51 5, a := w.extractLsb' 46 5, b := w.extractLsb' 41 5, mod := w.extractLsb' 32 9, imm := w.extractLsb' 0 32 }

/-- The instruction word of an opcode and its fields (R146). -/
def encodeWord (op : BitVec 8) (x : Fields) : Dword := op ++ x.d ++ x.a ++ x.b ++ x.mod ++ x.imm

/-- The opcode map (R150): the command of an opcode, for a thread and fields. -/
def opcodeMap (op : Nat) (t : Thr) (x : Fields) : Option Instr :=
  match op with
  | 0x00 => some (.add t x)
  | 0x01 => some (.sub t x)
  | 0x02 => some (.andOp t x)
  | 0x03 => some (.orOp t x)
  | 0x04 => some (.xor t x)
  | 0x05 => some (.shl t x)
  | 0x06 => some (.shr t x)
  | 0x07 => some (.sra t x)
  | 0x08 => some (.slt t x)
  | 0x09 => some (.sltu t x)
  | 0x0A => some (.mul t x)
  | 0x0B => some (.mulh t x)
  | 0x0C => some (.mulhu t x)
  | 0x0D => some (.minOp t x)
  | 0x0E => some (.maxOp t x)
  | 0x10 => some (.addi t x)
  | 0x11 => some (.subi t x)
  | 0x12 => some (.andi t x)
  | 0x13 => some (.ori t x)
  | 0x14 => some (.xori t x)
  | 0x15 => some (.shli t x)
  | 0x16 => some (.shri t x)
  | 0x17 => some (.srai t x)
  | 0x18 => some (.slti t x)
  | 0x19 => some (.sltui t x)
  | 0x1A => some (.muli t x)
  | 0x1B => some (.mulhi t x)
  | 0x1C => some (.mulhui t x)
  | 0x1D => some (.mini t x)
  | 0x1E => some (.maxi t x)
  | 0x20 => some (.beq t x)
  | 0x21 => some (.bne t x)
  | 0x22 => some (.blt t x)
  | 0x23 => some (.bge t x)
  | 0x24 => some (.bltu t x)
  | 0x25 => some (.bgeu t x)
  | 0x26 => some (.jal t x)
  | 0x27 => some (.jalr t x)
  | 0x30 => some (.ld t x)
  | 0x31 => some (.st t x)
  | 0x32 => some (.ldv t x)
  | 0x33 => some (.stv t x)
  | 0x34 => some (.strm t x)
  | 0x40 => some (.vadd t x)
  | 0x41 => some (.vsub t x)
  | 0x42 => some (.vmul t x)
  | 0x43 => some (.vfma t x)
  | 0x44 => some (.vmin t x)
  | 0x45 => some (.vmax t x)
  | 0x46 => some (.vcmp t x)
  | 0x47 => some (.vand t x)
  | 0x48 => some (.vor t x)
  | 0x49 => some (.vxor t x)
  | 0x4A => some (.vsel t x)
  | 0x4B => some (.vbcast t x)
  | 0x4C => some (.vext t x)
  | 0x4D => some (.vins t x)
  | 0x4E => some (.vsum t x)
  | 0x4F => some (.vmaxr t x)
  | 0x50 => some (.dot t x)
  | 0x51 => some (.aclr t x)
  | 0x52 => some (.ard t x)
  | 0x53 => some (.ardv t x)
  | 0x54 => some (.aget t x)
  | 0x60 => some (.cvt t x)
  | 0x61 => some (.cvtmx t x)
  | 0x70 => some (.vexp t x)
  | 0x71 => some (.vrcp t x)
  | 0x72 => some (.vrsq t x)
  | 0x73 => some (.vsig t x)
  | 0x74 => some (.vsilu t x)
  | 0x80 => some (.rwr t x)
  | 0x81 => some (.rwrv t x)
  | 0x82 => some (.rrd t x)
  | 0x83 => some (.rrdv t x)
  | 0x90 => some (.pump t x)
  | 0xA0 => some (.sadd t x)
  | 0xA1 => some (.ssub t x)
  | 0xA2 => some (.waitge t x)
  | 0xA3 => some (.take t x)
  | 0xA4 => some (.fence t x)
  | 0xA5 => some (.arrive t x)
  | 0xB0 => some (.nop t x)
  | 0xB1 => some (.halt t x)
  | 0xB2 => some (.tstart t x)
  | 0xB3 => some (.mfsr t x)
  | 0xB4 => some (.mtsr t x)
  | 0xB5 => some (.trap t x)
  | _ => none

/-- The opcode and the fields of a core command (R150); none for every other command. -/
def coreOp (i : Instr) : Option (BitVec 8 × Fields) :=
  match i with
  | .add _ x => some (0x00, x)
  | .sub _ x => some (0x01, x)
  | .andOp _ x => some (0x02, x)
  | .orOp _ x => some (0x03, x)
  | .xor _ x => some (0x04, x)
  | .shl _ x => some (0x05, x)
  | .shr _ x => some (0x06, x)
  | .sra _ x => some (0x07, x)
  | .slt _ x => some (0x08, x)
  | .sltu _ x => some (0x09, x)
  | .mul _ x => some (0x0A, x)
  | .mulh _ x => some (0x0B, x)
  | .mulhu _ x => some (0x0C, x)
  | .minOp _ x => some (0x0D, x)
  | .maxOp _ x => some (0x0E, x)
  | .addi _ x => some (0x10, x)
  | .subi _ x => some (0x11, x)
  | .andi _ x => some (0x12, x)
  | .ori _ x => some (0x13, x)
  | .xori _ x => some (0x14, x)
  | .shli _ x => some (0x15, x)
  | .shri _ x => some (0x16, x)
  | .srai _ x => some (0x17, x)
  | .slti _ x => some (0x18, x)
  | .sltui _ x => some (0x19, x)
  | .muli _ x => some (0x1A, x)
  | .mulhi _ x => some (0x1B, x)
  | .mulhui _ x => some (0x1C, x)
  | .mini _ x => some (0x1D, x)
  | .maxi _ x => some (0x1E, x)
  | .beq _ x => some (0x20, x)
  | .bne _ x => some (0x21, x)
  | .blt _ x => some (0x22, x)
  | .bge _ x => some (0x23, x)
  | .bltu _ x => some (0x24, x)
  | .bgeu _ x => some (0x25, x)
  | .jal _ x => some (0x26, x)
  | .jalr _ x => some (0x27, x)
  | .ld _ x => some (0x30, x)
  | .st _ x => some (0x31, x)
  | .ldv _ x => some (0x32, x)
  | .stv _ x => some (0x33, x)
  | .strm _ x => some (0x34, x)
  | .vadd _ x => some (0x40, x)
  | .vsub _ x => some (0x41, x)
  | .vmul _ x => some (0x42, x)
  | .vfma _ x => some (0x43, x)
  | .vmin _ x => some (0x44, x)
  | .vmax _ x => some (0x45, x)
  | .vcmp _ x => some (0x46, x)
  | .vand _ x => some (0x47, x)
  | .vor _ x => some (0x48, x)
  | .vxor _ x => some (0x49, x)
  | .vsel _ x => some (0x4A, x)
  | .vbcast _ x => some (0x4B, x)
  | .vext _ x => some (0x4C, x)
  | .vins _ x => some (0x4D, x)
  | .vsum _ x => some (0x4E, x)
  | .vmaxr _ x => some (0x4F, x)
  | .dot _ x => some (0x50, x)
  | .aclr _ x => some (0x51, x)
  | .ard _ x => some (0x52, x)
  | .ardv _ x => some (0x53, x)
  | .aget _ x => some (0x54, x)
  | .cvt _ x => some (0x60, x)
  | .cvtmx _ x => some (0x61, x)
  | .vexp _ x => some (0x70, x)
  | .vrcp _ x => some (0x71, x)
  | .vrsq _ x => some (0x72, x)
  | .vsig _ x => some (0x73, x)
  | .vsilu _ x => some (0x74, x)
  | .rwr _ x => some (0x80, x)
  | .rwrv _ x => some (0x81, x)
  | .rrd _ x => some (0x82, x)
  | .rrdv _ x => some (0x83, x)
  | .pump _ x => some (0x90, x)
  | .sadd _ x => some (0xA0, x)
  | .ssub _ x => some (0xA1, x)
  | .waitge _ x => some (0xA2, x)
  | .take _ x => some (0xA3, x)
  | .fence _ x => some (0xA4, x)
  | .arrive _ x => some (0xA5, x)
  | .nop _ x => some (0xB0, x)
  | .halt _ x => some (0xB1, x)
  | .tstart _ x => some (0xB2, x)
  | .mfsr _ x => some (0xB3, x)
  | .mtsr _ x => some (0xB4, x)
  | .trap _ x => some (0xB5, x)
  | _ => none

/-- The instruction word of a core command (R146, R150). -/
def encodeCore (i : Instr) : Option Dword := (coreOp i).map (fun e => encodeWord e.1 e.2)

/-- The command that a thread's instruction word spells; none for an opcode outside the map (R146, R150). -/
def decodeCore (t : Thr) (w : Dword) : Option Instr := opcodeMap (w.extractLsb' 56 8).toNat t (wordFields w)

end Sys2Proof
end

