-- ==== Sys2Proof/Config.lean ====
section
/-! DEFINITION. What the manual leaves open: free values as opaque constants without a body, so that a
claim holds whatever they are.  Each is applied to what it depends on, or to the counter `freeCtr` of
the state. -/

namespace Sys2Proof.Config

/-- How far a special-function result lies from the exactly rounded one, in units in the last place,
before R141's bound is applied; a fixed function of the operation and its input (R142; log 10). -/
opaque sfuError : Nat → Word → Int

/-- The FP32 exponential of the sampler's softmax, away from 0 and −∞: R268 gives its format and not its accuracy (log 11). -/
opaque samplerExp : Word → Word

/-- The FP32 sum of the sampler's softmax: R268 gives no order of addition (log 11). -/
opaque samplerSum : List Word → Word

/-- A fresh value: the 32 B debug challenge (R495; log 12). -/
opaque challenge : Nat → BitVec 256

/-- Whether an HSS signature verifies a message under a public key (RFC 8554; R486, R495; log 13). -/
opaque hssVerify : List Byte → List Byte → List Byte → Bool

/-- Whether an HSS key and signature use an accepted parameter set (R486; log 13). -/
opaque hssParams : List Byte → List Byte → Bool

/-- The signature that leaf `q` of the attestation key makes over a message (R490, R491; log 13). -/
opaque attestSign : BitVec 256 → Nat → List Byte → List Byte

/-- The attestation public key derived from the identity seed (R490; log 13). -/
opaque attestKey : BitVec 256 → List Byte

/-- What `GET_IDENTITY` gives as public key in RETURNED, where the ROM derives none (R483, R495; log 13). -/
opaque noKey : List Byte

/-- A byte of host memory that the module reads without a command supplying it: address, draw (log 23). -/
opaque hostByte : Nat → Nat → Byte

/-- The data a CXL.mem read returns from a unit whose data is lost (poisoned; R97, R470; log 14). -/
opaque lostData : Nat → Byte

/-- The address of a slot's page table, as `KV_ROOT` holds it (R105, R242; log 17). -/
opaque kvRoot : Nat → Nat

/-- The journal pointer of a slot at a sequence (R242 names it and gives no value; log 17). -/
opaque journal : Nat → Nat → Nat

/-- The 64 B of a mirrored paddock record, whose layout the manual does not give (R403; log 16). -/
opaque padRecord : List Nat → List Byte

/-- The fields of a mirrored paddock record as a standby reads them: number, column, row, width, height, hash, committed
gait, tampered mark (R403; log 16). -/
opaque padFields : List Byte → List Nat

/-- `TAG` and ring pair of an open turn as the journal that a mirrored slot names gives them: slot bytes, turn entry
(R412; log 16). -/
opaque journalTurn : List Byte → Nat → Nat × Nat

/-- A KV page that a takeover rebuilds by replaying forced tokens: slot, page table entry, draw (R411; log 22). -/
opaque rebuiltKv : Nat → Nat → Nat → List Byte

/-- The die-to-die lanes of an engine that show an error in a lane test, data lanes from 0 and spares from 512: engine,
direction up, draw (R362; the manual gives the test no input; log 21). -/
opaque badLanes : Nat → Bool → Nat → List Nat

/-- The 30 check symbols of a codeword of RS(544,514), of 10 bits each: R344 gives neither the field polynomial nor the generator
(log 126). -/
opaque rsParity : List Bool → BitVec 300

/-- The symbols of lane framing and alignment markers that stand before a codeword: its number since training (R344; log 126). -/
opaque laneMark : Nat → List (Bool × Bool)

/-- The seed that training gives a lane's scrambler: link and lane, draw (R344; log 126). -/
opaque laneSeed : Nat → Nat → BitVec 58

/-- The code that `OE_PWR.POWER` shows of a wavelength whose tone has gone: laser fibre and wavelength (R311, R339; log 136). -/
opaque noTonePower : Nat → BitVec 16

/-- How many lines of its HBM command a pump has moved when a fence stops it: draw (R59 stops it at the next line boundary;
log 120). -/
opaque pumpMoved : Nat → Nat

/-- Whether a figure that the manual gives in a coarser unit is rounded up: the figure, the unit (log 24). -/
opaque roundUp : Int → Nat → Bool

/-- Whether an active that is not protected shows a paddock as covered: paddock, draw (R395 says that both modules show it,
and not how the active learns of it; log 25). -/
opaque coverShown : Nat → Nat → Bool

end Sys2Proof.Config
end

