-- ==== Sys2Proof/Machine/Bits.lean ====
section
/-! DEFINITION. Bit fields, sign extension, byte order and fixed checksums (R13, R343, R368, R404,
R213), used by every family. -/

namespace Sys2Proof.Machine

/-- Bits [lo + len - 1 : lo] of a word, as a number (R13). -/
def fld {n : Nat} (w : BitVec n) (lo len : Nat) : Nat := w.toNat / 2 ^ lo % 2 ^ len

/-- Bit `i` of a word. -/
def bit {n : Nat} (w : BitVec n) (i : Nat) : Bool := w.getLsbD i

/-- The word with bits [lo + len - 1 : lo] replaced by the low bits of `v`. -/
def setFld {n : Nat} (w : BitVec n) (lo len v : Nat) : BitVec n :=
  let m : BitVec n := BitVec.ofNat n ((2 ^ len - 1) * 2 ^ lo)
  (w &&& ~~~m) ||| (BitVec.ofNat n (v * 2 ^ lo) &&& m)

/-- The word with bit `i` replaced. -/
def setBit {n : Nat} (w : BitVec n) (i : Nat) (b : Bool) : BitVec n := setFld w i 1 b.toNat

/-- The 32-bit mask of bits [lo + len - 1 : lo]. -/
def mask32 (lo len : Nat) : Word := BitVec.ofNat 32 ((2 ^ len - 1) * 2 ^ lo)

/-- A field of a register being composed: `v` at bit `lo`. -/
def at_ (lo v : Nat) : Word := BitVec.ofNat 32 (v * 2 ^ lo)

/-- The signed value of the low `n` bits of a number. -/
def signed (n v : Nat) : Int :=
  let v := v % 2 ^ n
  if 2 * v < 2 ^ n then (v : Int) else (v : Int) - 2 ^ n

/-- The two's-complement code of `z` in `n` bits. -/
def twos (n : Nat) (z : Int) : Nat := (z % (2 ^ n : Int)).toNat

/-- The `n` low bytes of `v`, least significant first (R13). -/
def bytesOf (n v : Nat) : List Byte :=
  (List.range n).map (fun i => BitVec.ofNat 8 (v / 256 ^ i))

/-- Bytes padded with zeros, or cut, to a length. -/
def padTo (n : Nat) (l : List Byte) : List Byte := (l ++ List.replicate (n - l.length) 0).take n

/-- The number a little-endian byte list spells (R13). -/
def leNat : List Byte → Nat
  | [] => 0
  | b :: r => b.toNat + 256 * leNat r

/-- Byte `i` of a byte list, 0 past its end. -/
def byteAt (l : List Byte) (i : Nat) : Byte := l.getD i 0

/-- The `n`-byte little-endian number at offset `o` of a byte list. -/
def leAt (l : List Byte) (o n : Nat) : Nat := leNat ((l.drop o).take n)

/-- The bytes of a 512-bit line, lowest address first. -/
def lineBytes (v : Line) : List Byte := bytesOf 64 v.toNat

/-- The line that up to 64 bytes spell; missing bytes are 0. -/
def lineOf (l : List Byte) : Line := BitVec.ofNat 512 (leNat (l.take 64))

/-- ⌈a / b⌉, 0 where b is 0. -/
def cdiv (a b : Nat) : Nat := (a + b - 1) / b

/-- The list of its elements at the positions a predicate on the position selects. -/
def indexWhere {α : Type} (p : α → Bool) : List α → Nat → List Nat
  | [], _ => []
  | x :: r, i => if p x then i :: indexWhere p r (i + 1) else indexWhere p r (i + 1)

/-- One bit step of a reflected CRC register. -/
def crcBit (poly r : Nat) : Nat := if r % 2 = 1 then (r / 2) ^^^ poly else r / 2

/-- Eight bit steps. -/
def crcByte (poly r : Nat) (b : Byte) : Nat :=
  (List.range 8).foldl (fun r _ => crcBit poly r) (r ^^^ b.toNat)

/-- CRC-64 of ECMA-182, bits least significant first, initial value and final XOR all ones (R343). -/
def crc64 (l : List Byte) : Dword :=
  ~~~(BitVec.ofNat 64 (l.foldl (crcByte 0xC96C5795D7870F42) (2 ^ 64 - 1)))

/-- CRC-32C (R368, R404, R493). -/
def crc32c (l : List Byte) : Word :=
  ~~~(BitVec.ofNat 32 (l.foldl (crcByte 0x82F63B78) (2 ^ 32 - 1)))

end Sys2Proof.Machine
end

