-- ==== Sys2Proof/Machine/Num.lean ====
section
/-! DEFINITION. Number formats and exact arithmetic (R115 to R143): a finite value is a signed integer
times a power of two, every operation is computed exactly, and one rounding narrows it. -/

namespace Sys2Proof.Machine

/-- How a format spells infinities and NaNs (R115). -/
inductive Specials where
  | none
  | e4m3
  | ieee
  deriving DecidableEq, Repr

/-- A floating-point format: exponent bits, mantissa bits, bias and special codes (R115). -/
structure Fmt where
  ebits : Nat
  mbits : Nat
  bias : Nat
  sp : Specials
  deriving DecidableEq, Repr

/-- The nine element formats by their code (R150); 5, INT8, has no layout of this kind. -/
inductive FmtCode where
  | fp4 | e3m2 | e2m3 | e4m3 | e5m2 | int8 | bf16 | fp16 | fp32
  deriving DecidableEq, Repr

/-- The format a 4-bit `FMT` code names; codes 9 to 15 are undefined (R150). -/
def fmtOf : Nat → Option FmtCode
  | 0 => some .fp4 | 1 => some .e3m2 | 2 => some .e2m3 | 3 => some .e4m3 | 4 => some .e5m2
  | 5 => some .int8 | 6 => some .bf16 | 7 => some .fp16 | 8 => some .fp32 | _ => none

/-- Codes 0 to 5 are the MX formats (R150). -/
def FmtCode.isMx : FmtCode → Bool
  | .bf16 | .fp16 | .fp32 => false
  | _ => true

/-- Bits per element (R120). -/
def FmtCode.width : FmtCode → Nat
  | .fp4 => 4 | .e3m2 => 6 | .e2m3 => 6 | .e4m3 => 8 | .e5m2 => 8 | .int8 => 8
  | .bf16 => 16 | .fp16 => 16 | .fp32 => 32

/-- Elements per 512-bit register (R120). -/
def FmtCode.perReg : FmtCode → Nat
  | .fp4 => 128 | .e3m2 => 64 | .e2m3 => 64 | .e4m3 => 64 | .e5m2 => 64 | .int8 => 64
  | .bf16 => 32 | .fp16 => 32 | .fp32 => 16

/-- Elements per dot (R47). -/
def FmtCode.perDot : FmtCode → Nat
  | .fp4 => 64 | .e3m2 => 64 | .e2m3 => 64 | .e4m3 => 32 | .e5m2 => 32 | .int8 => 32
  | .bf16 => 16 | .fp16 => 16 | .fp32 => 4

/-- Operand bytes per dot (R47). -/
def FmtCode.dotBytes : FmtCode → Nat
  | .e3m2 => 48 | .e2m3 => 48 | .fp32 => 16 | _ => 32

/-- Block scales per dot operand (R124). -/
def FmtCode.dotBlocks : FmtCode → Nat
  | .fp4 => 2 | .e3m2 => 2 | .e2m3 => 2 | .e4m3 => 1 | .e5m2 => 1 | .int8 => 1 | _ => 0

/-- The layout of a floating-point format (R115); the entry of INT8 is never used. -/
def FmtCode.layout : FmtCode → Fmt
  | .fp4 => ⟨2, 1, 1, .none⟩ | .e3m2 => ⟨3, 2, 3, .none⟩ | .e2m3 => ⟨2, 3, 1, .none⟩
  | .e4m3 => ⟨4, 3, 7, .e4m3⟩ | .e5m2 => ⟨5, 2, 15, .ieee⟩ | .int8 => ⟨0, 0, 0, .none⟩
  | .bf16 => ⟨8, 7, 127, .ieee⟩ | .fp16 => ⟨5, 10, 15, .ieee⟩ | .fp32 => ⟨8, 23, 127, .ieee⟩

/-- emax of R139: the exponent of the format's largest finite value. -/
def FmtCode.emax : FmtCode → Nat
  | .fp4 => 2 | .e3m2 => 4 | .e2m3 => 2 | .e4m3 => 8 | .e5m2 => 15 | _ => 0

/-- An exact value: NaN, an infinity, or (-1)^neg × m × 2^e. -/
inductive Val where
  | nan
  | inf (neg : Bool)
  | fin (neg : Bool) (m : Nat) (e : Int)
  deriving DecidableEq, Repr

namespace Fmt

/-- The exponent of the least subnormal bit. -/
def qmin (f : Fmt) : Int := 1 - (f.bias : Int) - (f.mbits : Int)

/-- The largest finite magnitude code (R115). -/
def maxCode (f : Fmt) : Nat :=
  match f.sp with
  | .none => 2 ^ (f.ebits + f.mbits) - 1
  | .e4m3 => 2 ^ (f.ebits + f.mbits) - 2
  | .ieee => (2 ^ f.ebits - 1) * 2 ^ f.mbits - 1

/-- The infinity's magnitude code, where the format has one. -/
def infCode (f : Fmt) : Nat := (2 ^ f.ebits - 1) * 2 ^ f.mbits

/-- The canonical NaN (R118): 0x7FC0_0000, 0x7FC0, 0x7E00, 0x7F in E4M3 and 0x7F in E5M2. -/
def nanCode (f : Fmt) : Nat :=
  match f.sp with
  | .none => 0
  | .e4m3 => 0x7F
  | .ieee => if f.mbits = 2 then 0x7F else f.infCode + 2 ^ (f.mbits - 1)

/-- The sign bit's weight. -/
def signBit (f : Fmt) : Nat := 2 ^ (f.ebits + f.mbits)

/-- The value of an encoding (R115, R117). -/
def decode (f : Fmt) (code : Nat) : Val :=
  let neg := decide (code / f.signBit % 2 = 1)
  let mag := code % f.signBit
  let e := mag / 2 ^ f.mbits
  let m := mag % 2 ^ f.mbits
  if decide (f.maxCode < mag) then
    (if f.sp = .ieee && mag = f.infCode then .inf neg else .nan)
  else if e = 0 then .fin neg m f.qmin
  else .fin neg (2 ^ f.mbits + m) (f.qmin + (e - 1 : Nat))

end Fmt

/-- The three roundings of R134. -/
inductive Rnd where
  | nearest
  | zero
  | stoch (draw : Nat)
  deriving DecidableEq, Repr

/-- The integer nearest n / 2^sh under a rounding of the magnitude (R134, R135). -/
def rndShift (r : Rnd) (n sh : Nat) : Nat :=
  let lo := n / 2 ^ sh
  let rem := n % 2 ^ sh
  match r with
  | .zero => lo
  | .nearest =>
    if 2 * rem > 2 ^ sh then lo + 1
    else if 2 * rem = 2 ^ sh ∧ sh ≠ 0 then lo + lo % 2
    else lo
  | .stoch d => if rem * 65536 / 2 ^ sh + d % 65536 ≥ 65536 then lo + 1 else lo

/-- The magnitude code of m × 2^e before any overflow rule, and whether bits were lost. -/
def rndMag (f : Fmt) (r : Rnd) (m : Nat) (e : Int) : Nat × Bool :=
  if m = 0 then (0, false)
  else
    let q : Int := max ((Nat.log2 m : Int) + e - (f.mbits : Int)) f.qmin
    let k := if e ≥ q then m * 2 ^ (e - q).toNat else rndShift r m (q - e).toNat
    let lost := decide (e < q) && decide (m % 2 ^ (q - e).toNat ≠ 0)
    ((q - f.qmin).toNat * 2 ^ f.mbits + k, lost)

/-- Arithmetic flags raised by one result (R143). -/
structure Flags where
  nv : Bool
  dz : Bool
  of : Bool
  uf : Bool
  nx : Bool
  deriving DecidableEq, Repr

/-- No flag. -/
def Flags.none : Flags := ⟨false, false, false, false, false⟩

/-- Flags of several results together. -/
def Flags.or (x y : Flags) : Flags :=
  ⟨x.nv || y.nv, x.dz || y.dz, x.of || y.of, x.uf || y.uf, x.nx || y.nx⟩

/-- What a finite overflow gives: the largest finite magnitude, or the format's IEEE result (R138). -/
def ovfCode (f : Fmt) (ieee : Bool) : Nat :=
  match f.sp with
  | .none => f.maxCode
  | .e4m3 => if ieee then f.nanCode else f.maxCode
  | .ieee => if ieee then f.infCode else f.maxCode

/-- Rounds an exact finite value into a format under R135 and R138: the code and the flags. -/
def roundFin (f : Fmt) (r : Rnd) (ieee : Bool) (neg : Bool) (m : Nat) (e : Int) : Nat × Flags :=
  let s := if neg then f.signBit else 0
  let near := rndMag f .nearest m e
  let raw := rndMag f r m e
  -- R135: above the largest finite magnitude a stochastic rounding decides as round to nearest does
  let exactMax := rndMag f .zero m e
  let above := decide (f.maxCode < exactMax.1) || (decide (exactMax.1 = f.maxCode) && exactMax.2)
  let c := match r with
    | .stoch _ => if above then (if near.1 ≤ f.maxCode then f.maxCode else near.1) else raw.1
    | _ => raw.1
  if f.maxCode < c then
    let code := ovfCode f ieee
    -- a NaN result has no sign of its own: it is the canonical NaN (R118), produced from no NaN (R143)
    let nan := decide (code = f.nanCode) && decide (f.sp ≠ .none)
    ((if nan then 0 else s) + code, { Flags.none with of := true, nx := true, nv := nan })
  else
    (s + c, { Flags.none with nx := raw.2, uf := raw.2 && decide (c < 2 ^ f.mbits) })

/-- Rounds any value into a float format (R138): FP4 and FP6 have no NaN, FP8 E4M3 no infinity. -/
def roundVal (f : Fmt) (r : Rnd) (ieee : Bool) : Val → Nat × Flags
  | .nan => if f.sp = .none then (0, { Flags.none with nv := true }) else (f.nanCode, Flags.none)
  | .inf neg =>
    let s := if neg then f.signBit else 0
    match f.sp with
    | .none => (s + f.maxCode, { Flags.none with of := true })
    | .e4m3 =>
      if ieee then (f.nanCode, { Flags.none with nv := true })
      else (s + f.maxCode, { Flags.none with of := true })
    | .ieee => (s + f.infCode, Flags.none)
  | .fin neg m e => roundFin f r ieee neg m e

/-- Rounds a value to INT8 and clamps it (R138). -/
def roundInt8 (r : Rnd) : Val → Nat × Flags
  | .nan => (0, { Flags.none with nv := true })
  | .inf neg => ((if neg then 0x80 else 0x7F), { Flags.none with of := true })
  | .fin neg m e =>
    let k := if e ≥ 0 then m * 2 ^ e.toNat else rndShift r m (-e).toNat
    let lost := decide (e < 0) && decide (m % 2 ^ (-e).toNat ≠ 0)
    let lim := if neg then 128 else 127
    if k > lim then ((if neg then 0x80 else 0x7F), { Flags.none with of := true, nx := true })
    else (twos 8 (if neg then -(k : Int) else k), { Flags.none with nx := lost })

/-- The value of an element; `block` says that an INT8 element is part of an MX block (R115, R116). -/
def elemVal (c : FmtCode) (block : Bool) (code : Nat) : Val :=
  match c with
  | .int8 =>
    let z := signed 8 code
    .fin (decide (z < 0)) z.natAbs (if block then -6 else 0)
  | _ => c.layout.decode code

/-- A value scaled by 2^d (R122, R123). -/
def Val.scale : Val → Int → Val
  | .fin n m e, d => .fin n m (e + d)
  | v, _ => v

/-- An element times its block scale; code 0xFF makes it NaN (R123). -/
def scaled (v : Val) (code : Nat) : Val := if code = 0xFF then .nan else v.scale ((code : Int) - 127)

/-- Negation. -/
def Val.neg : Val → Val
  | .nan => .nan
  | .inf n => .inf (!n)
  | .fin n m e => .fin (!n) m e

/-- Is it NaN? -/
def Val.isNan : Val → Bool
  | .nan => true
  | _ => false

/-- Is it a zero? -/
def Val.isZero : Val → Bool
  | .fin _ m _ => m == 0
  | _ => false

/-- The sign of a value that has one. -/
def Val.sign : Val → Bool
  | .nan => false
  | .inf n => n
  | .fin n _ _ => n

/-- The exact integer of a finite value in units of 2^q, for q at most its exponent. -/
def finInt (n : Bool) (m : Nat) (e q : Int) : Int :=
  let k : Nat := m * 2 ^ (e - q).toNat
  if n then -(k : Int) else k

/-- The exact sum of two values with IEEE signs of zero under round to nearest (R119). -/
def Val.add : Val → Val → Val
  | .nan, _ => .nan
  | _, .nan => .nan
  | .inf a, .inf b => if a = b then .inf a else .nan
  | .inf a, _ => .inf a
  | _, .inf b => .inf b
  | .fin n m e, .fin n' m' e' =>
    let q := min e e'
    let z := finInt n m e q + finInt n' m' e' q
    if z = 0 then .fin (n && n' && decide (m = 0 ∧ m' = 0)) 0 q
    else .fin (decide (z < 0)) z.natAbs q

/-- The exact product. -/
def Val.mul : Val → Val → Val
  | .nan, _ => .nan
  | _, .nan => .nan
  | .inf a, .inf b => .inf (a != b)
  | .inf a, .fin n m _ => if m = 0 then .nan else .inf (a != n)
  | .fin n m _, .inf b => if m = 0 then .nan else .inf (n != b)
  | .fin n m e, .fin n' m' e' => .fin (n != n') (m * m') (e + e')

/-- Is the first below the second?  False where either is NaN; -0 equals +0 (R119). -/
def Val.lt : Val → Val → Bool
  | .nan, _ => false
  | _, .nan => false
  | .inf a, .inf b => a && !b
  | .inf a, .fin _ _ _ => a
  | .fin _ _ _, .inf b => !b
  | .fin n m e, .fin n' m' e' =>
    let q := min e e'
    decide (finInt n m e q < finInt n' m' e' q)

/-- Are they equal?  False where either is NaN. -/
def Val.eqv (a b : Val) : Bool := !a.isNan && !b.isNan && !a.lt b && !b.lt a

/-- The minimum of R140: NaN where either is, and -0 below +0. -/
def Val.min (a b : Val) : Val :=
  if a.isNan || b.isNan then .nan
  else if a.lt b then a else if b.lt a then b
  else if a.sign then a else b

/-- The maximum of R140. -/
def Val.max (a b : Val) : Val :=
  if a.isNan || b.isNan then .nan
  else if a.lt b then b else if b.lt a then a
  else if a.sign then b else a

/-- Raises NV where an operation on inputs that are not NaN gives NaN (R143). -/
def nvOf (ins : List Val) (out : Val) : Flags :=
  { Flags.none with nv := out.isNan && ins.all (fun v => !v.isNan) }

/-- Rounds an IEEE result to nearest, overflow to infinity (R140). -/
def roundIeee (f : Fmt) (ins : List Val) (v : Val) : Nat × Flags :=
  let r := roundVal f .nearest true v
  (r.1, r.2.or (nvOf ins v))

/-- The FP32 layout. -/
def f32 : Fmt := FmtCode.fp32.layout

/-- The value of an FP32 word. -/
def f32Val (w : Word) : Val := f32.decode w.toNat

/-- An FP32 sum rounded to nearest (R156, R268). -/
def f32Add (a b : Word) : Word := BitVec.ofNat 32 (roundVal f32 .nearest true ((f32Val a).add (f32Val b))).1

/-- An FP32 product rounded to nearest. -/
def f32Mul (a b : Word) : Word := BitVec.ofNat 32 (roundVal f32 .nearest true ((f32Val a).mul (f32Val b))).1

/-- An FP32 difference rounded to nearest. -/
def f32Sub (a b : Word) : Word :=
  BitVec.ofNat 32 (roundVal f32 .nearest true ((f32Val a).add (f32Val b).neg)).1

/-- The exact quotient of two magnitudes to 96 bits with a sticky last bit, as a mantissa and exponent. -/
def quotMag (m m' : Nat) (e e' : Int) : Nat × Int :=
  let n := m * 2 ^ (Nat.log2 m' + 96)
  let q := n / m'
  let st := if n % m' = 0 then 0 else 1
  (2 * q + st, e - e' - ((Nat.log2 m' + 97 : Nat) : Int))

/-- The quotient of two values, exact up to the sticky bit that rounding needs. -/
def Val.div : Val → Val → Val
  | .nan, _ => .nan
  | _, .nan => .nan
  | .inf _, .inf _ => .nan
  | .inf a, .fin n _ _ => .inf (a != n)
  | .fin n _ _, .inf b => .fin (n != b) 0 0
  | .fin n m e, .fin n' m' e' =>
    if m' = 0 then (if m = 0 then .nan else .inf (n != n'))
    else if m = 0 then .fin (n != n') 0 0
    else
      let (k, q) := quotMag m m' e e'
      .fin (n != n') k q

/-- An FP32 quotient rounded to nearest (R268). -/
def f32Div (a b : Word) : Word := BitVec.ofNat 32 (roundVal f32 .nearest true ((f32Val a).div (f32Val b))).1

/-- Is the FP32 value of the first below that of the second? -/
def f32Lt (a b : Word) : Bool := (f32Val a).lt (f32Val b)

/-- ⌊√n⌋, bit by bit from 2^k down. -/
def isqrtGo (n : Nat) : Nat → Nat → Nat
  | 0, r => if (r + 1) * (r + 1) ≤ n then r + 1 else r
  | k + 1, r => isqrtGo n k (if (r + 2 ^ (k + 1)) * (r + 2 ^ (k + 1)) ≤ n then r + 2 ^ (k + 1) else r)

/-- ⌊√n⌋. -/
def isqrt (n : Nat) : Nat := if n = 0 then 0 else isqrtGo n (Nat.log2 n / 2 + 1) 0

/-- 1 / √(m × 2^e) to about 96 bits with a sticky last bit. -/
def rsqrtMag (m : Nat) (e : Int) : Nat × Int :=
  -- make the exponent even, then √(2^(2k) / m') with e' even
  let (m', e') := if e % 2 = 0 then (m, e) else (2 * m, e - 1)
  let k := Nat.log2 m' + 100
  let n := 2 ^ (2 * k) / m'
  let r := isqrt n
  let exact := decide (r * r * m' = 2 ^ (2 * k))
  (2 * r + (if exact then 0 else 1), -(e' / 2) - (k : Int) - 1)

/-- Fraction bits of the fixed-point exponential. -/
def expBits : Nat := 400

/-- Taylor terms of e^r in fixed point, from term `i`, `n` of them. -/
def expTaylor (r : Nat) : Nat → Nat → Nat → Nat
  | 0, _, _ => 0
  | n + 1, i, t => t + expTaylor r n (i + 1) (t * r / 2 ^ expBits / (i + 1))

/-- Squares a fixed-point number `n` times. -/
def expSquare : Nat → Nat → Nat
  | 0, x => x
  | n + 1, x => expSquare n (x * x / 2 ^ expBits)

/-- e^(m × 2^e) for a magnitude below 128, in fixed point of `expBits` fraction bits. -/
def expMag (m : Nat) (e : Int) : Nat :=
  let sh : Int := e + (expBits : Int) - 16
  let r := if sh ≥ 0 then m * 2 ^ sh.toNat else m / 2 ^ (-sh).toNat
  expSquare 16 (expTaylor r 48 0 (2 ^ expBits))

/-- The special functions of R141. -/
inductive Sfu where
  | exp | rcp | rsq | sig | silu
  deriving DecidableEq, Repr

/-- Its number, and its bound in units in the last place (R141). -/
def Sfu.code : Sfu → Nat
  | .exp => 0 | .rcp => 1 | .rsq => 2 | .sig => 3 | .silu => 4

/-- R141's bound. -/
def Sfu.ulps : Sfu → Nat
  | .exp => 2 | .rcp => 1 | .rsq => 1 | .sig => 3 | .silu => 3

/-- Moves a magnitude code by the module's own error, at most `b` units, staying finite (R141). -/
def nudge (b : Nat) (err : Int) (code : Nat) : Nat :=
  let d := max (-(b : Int)) (min (b : Int) err)
  Nat.min f32.maxCode ((code : Int) + d).toNat

/-- A finite result of the unit: the exactly rounded value moved within the bound; it is inexact
unless the exact value is the result. -/
def sfuFin (s : Sfu) (x : Word) (neg : Bool) (m : Nat) (e : Int) : Nat × Flags :=
  let (c, lost) := rndMag f32 .nearest m e
  if f32.maxCode < c then
    ((if neg then f32.signBit else 0) + f32.infCode, { Flags.none with of := true, nx := true })
  else
    let c' := nudge s.ulps (Config.sfuError s.code x) c
    let nx := lost || decide (c' ≠ c)
    ((if neg then f32.signBit else 0) + c', { Flags.none with nx := nx, uf := nx && decide (c' < 2 ^ 23) })

/-- An exact special result. -/
def sfuExact (code : Nat) : Nat × Flags := (code, Flags.none)

/-- Is the magnitude m × 2^e at least 128? -/
def big128 (m : Nat) (e : Int) : Bool := decide (m ≠ 0) && decide ((Nat.log2 m : Int) + e ≥ 7)

/-- 1 / (1 + e^-|x|) and its complement, as a mantissa with sticky bit and exponent. -/
def sigMag (neg : Bool) (m : Nat) (e : Int) : Nat × Int :=
  if big128 m e then (if neg then (1, -400) else (2 ^ 100 - 1, -100))
  else
    let ex := expMag m e
    let num := if neg then 2 ^ expBits else ex
    quotMag num (ex + 2 ^ expBits) 0 0

/-- One special function on one FP32 value (R141). -/
def sfu (s : Sfu) (x : Word) : Nat × Flags :=
  let one : Nat := 0x3F800000
  match s, f32Val x with
  | _, .nan => sfuExact f32.nanCode
  | .exp, .inf neg => sfuExact (if neg then 0 else f32.infCode)
  | .exp, .fin neg m e =>
    if m = 0 then sfuFin .exp x false 1 0
    else if big128 m e then (if neg then sfuFin .exp x false 1 (-400) else sfuFin .exp x false 1 400)
    else
      let ex := expMag m e
      if neg then
        let (k, q) := quotMag (2 ^ expBits) ex 0 0
        sfuFin .exp x false k q
      else sfuFin .exp x false (2 * ex + 1) (-(expBits : Int) - 1)
  | .rcp, .inf neg => sfuExact (if neg then f32.signBit else 0)
  | .rcp, .fin neg m e =>
    if m = 0 then ((if neg then f32.signBit else 0) + f32.infCode, { Flags.none with dz := true })
    else
      let (k, q) := quotMag 1 m 0 e
      sfuFin .rcp x neg k q
  | .rsq, .inf neg => if neg then (f32.nanCode, { Flags.none with nv := true }) else sfuExact 0
  | .rsq, .fin neg m e =>
    if m = 0 then ((if neg then f32.signBit else 0) + f32.infCode, { Flags.none with dz := true })
    else if neg then (f32.nanCode, { Flags.none with nv := true })
    else
      let (k, q) := rsqrtMag m e
      sfuFin .rsq x false k q
  | .sig, .inf neg => sfuExact (if neg then 0 else one)
  | .sig, .fin neg m e =>
    let (k, q) := sigMag neg m e
    sfuFin .sig x false k q
  | .silu, .inf neg => sfuExact (if neg then f32.signBit else f32.infCode)
  | .silu, .fin neg m e =>
    let (k, q) := sigMag neg m e
    sfuFin .silu x neg (k * m) (q + e)

/-- Element `i` of `b` bits of a vector (R120). -/
def elem (v : Line) (b i : Nat) : Nat := fld v (b * i) b

/-- Packs elements of `b` bits, element 0 lowest. -/
def packNat (b : Nat) : List Nat → Nat
  | [] => 0
  | x :: r => x % 2 ^ b + 2 ^ b * packNat b r

/-- A vector of the given elements; bits above them are 0 (R120). -/
def packVec (b : Nat) (l : List Nat) : Line := BitVec.ofNat 512 (packNat b l)

/-- The vector with element `i` of `b` bits replaced. -/
def setElem (v : Line) (b i x : Nat) : Line := setFld v (b * i) b x

/-- One draw of the core's generator: the next state and the 16-bit draw (R135). -/
def srNext (s : Dword) : Dword × Nat :=
  let x := s ^^^ (s <<< 13)
  let x := x ^^^ (x >>> 7)
  let x := x ^^^ (x <<< 17)
  (x, (x >>> 48).toNat)

/-- floor(log2) of a non-zero finite magnitude (R139). -/
def floorLog2 (m : Nat) (e : Int) : Int := (Nat.log2 m : Int) + e

/-- The largest magnitude of a list of values, NaN where any is NaN (R139). -/
def maxAbs : List Val → Val
  | [] => .fin false 0 0
  | v :: r =>
    let a : Val := match v with
      | .nan => .nan
      | .inf _ => .inf false
      | .fin _ m e => .fin false m e
    a.max (maxAbs r)

/-- The shared scale of a block (R139). -/
def mxScale (xs : List Val) (emax : Nat) : Nat :=
  match maxAbs xs with
  | .nan => 0xFF
  | .inf _ => 0xFF
  | .fin _ m e =>
    if m = 0 then 0x7F
    else
      let k := floorLog2 m e - (emax : Int)
      let k := max (-127) (min 127 k)
      (k + 127).toNat

end Sys2Proof.Machine
end

