-- ==== Sys2Proof/Machine/Table.lean ====
section
/-! DEFINITION. Sparse tables as plain data: a list of (key, value) pairs in one canonical form (keys
strictly rising, no entry equal to what an unlisted key reads as), and their two operations.  Every
memory and every array of units of the model is one of these. -/

namespace Sys2Proof.Machine

/-- A sparse table: the unlisted keys hold the default its accessor names. -/
abbrev Tbl (α : Type) := List (Nat × α)

/-- The entry at key `i`, or `d` where none is listed. -/
def tget {α : Type} (d : α) : Tbl α → Nat → α
  | [], _ => d
  | (k, v) :: r, i => if i = k then v else tget d r i

/-- Puts a value before the first key not below `i`, in place of an entry of that key. -/
def tins {α : Type} : Tbl α → Nat → α → Tbl α
  | [], i, x => [(i, x)]
  | (k, v) :: r, i, x =>
    if i < k then (i, x) :: (k, v) :: r
    else if i = k then (i, x) :: r
    else (k, v) :: tins r i x

/-- Removes every entry of key `i`. -/
def tdel {α : Type} : Tbl α → Nat → Tbl α
  | [], _ => []
  | (k, v) :: r, i => if i = k then tdel r i else (k, v) :: tdel r i

/-- Writes `x` at key `i`, keeping the canonical form: writing the default removes the entry. -/
def tput {α : Type} [DecidableEq α] (d : α) (m : Tbl α) (i : Nat) (x : α) : Tbl α :=
  if x = d then tdel m i else tins m i x

/-- Every key of `m` is above `b`. -/
def tabove {α : Type} (b : Nat) (m : Tbl α) : Bool := m.all (fun e => decide (b < e.1))

/-- The canonical form: keys strictly rising, and no entry equal to the default. -/
def twf {α : Type} [DecidableEq α] (d : α) : Tbl α → Bool
  | [] => true
  | (k, v) :: r => decide (v ≠ d) && tabove k r && twf d r

/-- Applies `f` to the entry at key `i`. -/
def tmod {α : Type} [DecidableEq α] (d : α) (m : Tbl α) (i : Nat) (f : α → α) : Tbl α :=
  tput d m i (f (tget d m i))

/-- Applies `f` to the entries at the keys `ks`, in order. -/
def tmodAll {α : Type} [DecidableEq α] (d : α) (m : Tbl α) (ks : List Nat) (f : Nat → α → α) : Tbl α :=
  ks.foldl (fun m k => tmod d m k (f k)) m

/-- Applies `f` to every listed entry, keeping the canonical form. -/
def tmapAll {α : Type} [DecidableEq α] (d : α) (m : Tbl α) (f : Nat → α → α) : Tbl α :=
  tmodAll d m (m.map (·.1)) f

end Sys2Proof.Machine
end

