-- ==== Sys2Proof/Machine/Types.lean ====
section
/-! DEFINITION. The plain-data types of the compute die, of the paddocks, of HBM and of the fault
collector: what one unit of each kind holds. -/

namespace Sys2Proof.Machine

/-- The states of a hardware thread (R42). -/
inductive ThState where
  | ready
  | stalled
  | waiting
  | parked
  | faulted
  deriving DecidableEq, Repr

/-- What a semaphore operation does to a counter (R171, R187), with the codes of R192. -/
inductive SemOp where
  | waitge
  | take
  | sadd
  | ssub
  | pumpAdd
  deriving DecidableEq, Repr

/-- The operation code of detail word D0 (R192). -/
def SemOp.code : SemOp → Nat
  | .waitge => 0 | .take => 1 | .sadd => 3 | .ssub => 4 | .pumpAdd => 5

/-- What a waiting thread waits for (R171, R174, R189, R190): a counter, or the round of a barrier. -/
structure Wait where
  /-- The operation, for a counter wait. -/
  op : SemOp
  /-- True for `ARRIVE.W`. -/
  barrier : Bool
  /-- The virtual ID, or the barrier number. -/
  vid : Nat
  /-- The counter's team (its table key) and number. -/
  team : Nat
  ctr : Nat
  /-- The amount, or for a barrier the round the thread arrived in. -/
  n : Nat
  /-- The counter lies in another team: the wait travels as packets. -/
  remote : Bool
  /-- A retry reply has come back (R189). -/
  refused : Bool
  /-- The sync memory has released the wait; its reply is on the way (R179). -/
  released : Bool
  /-- The timer has expired and the cancel is on the way (R190). -/
  cancel : Bool
  /-- The paddock's core cycles, in tenths, when the timer started, and the core cycles it was loaded with (R190). -/
  since : Nat
  limit : Nat
  deriving DecidableEq, Repr

/-- A thread's operand stream (R48, R154): the two pointers, the data lines it has read, the scale line
or lines it has read. -/
structure Stream where
  dptr : Nat
  sptr : Nat
  data : List (Nat × Line)
  scale : List (Nat × Line)
  deriving DecidableEq, Repr

/-- The empty stream of thread start: both pointers 0xA000 (R154). -/
def Stream.empty : Stream := ⟨0xA000, 0xA000, [], []⟩

/-- One hardware thread: state, PC, s1 to s31, special registers, wait and stream (R40, R42, R176). -/
structure Thread where
  st : ThState
  pc : Word
  /-- PC of the instruction that issued last (R147); the start PC before the first. -/
  prev : Word
  s : Tbl Word
  astat : Word
  wtimeout : Word
  tvec : Word
  tcause : Word
  tpc : Word
  tval : Word
  /-- The paddock's core-cycle count at thread start, in tenths (R176 `CYCLES`). -/
  cyc0 : Nat
  /-- `DTIME_HI` as the last read of `DTIME_LO` latched it (R17, R176). -/
  dtHi : Option Word
  wait : Option Wait
  stream : Stream
  /-- Device time at which the thread last began to wait or was parked, and the nap threshold in ns in force then (R204, R207). -/
  idleAt : Nat
  napAfter : Nat
  deriving DecidableEq, Repr

/-- The start value of `WTIMEOUT` (R176). -/
def wtimeout0 : Word := 0x08000000

/-- A thread that nothing has started: parked, every register at its start value. -/
def Thread.parked : Thread :=
  { st := .parked, pc := 0, prev := 0, s := [], astat := 0, wtimeout := wtimeout0, tvec := 0, tcause := 0,
    tpc := 0, tval := 0, cyc0 := 0, dtHi := none, wait := none, stream := .empty, idleAt := 0, napAfter := 2000 }

/-- An accumulator (R124, R125). -/
structure Acc where
  n : BitVec 64
  float : Bool
  f : BitVec 9
  sat : Bool
  inx : Bool
  nan : Bool
  pinf : Bool
  ninf : Bool
  deriving DecidableEq, Repr

/-- A cleared accumulator of the given mode and anchor (R125). -/
def Acc.clear (float : Bool) (f : BitVec 9) : Acc := ⟨0, float, f, false, false, false, false, false⟩

/-- FIXED mode with anchor 0. -/
def Acc.zero : Acc := Acc.clear false 0

/-- One core beside its threads and its cistern (R40, R49, R63, R74, R135, R204). -/
structure CoreS where
  v : Tbl Line
  acc : Tbl Acc
  /-- `sr_state`, and its value at the last step commit (R136). -/
  sr : Dword
  srSaved : Dword
  /-- The instruction buffer: line numbers and their copies, most recently used first (R49). -/
  ibuf : List (Nat × Line)
  /-- Remote requests outstanding (R63). -/
  outstanding : Nat
  /-- Vector registers awaiting an `RRDV` response: (thread, register) (R168). -/
  await : List (Nat × Nat)
  /-- The code and read-only boundaries, in lines (R74). -/
  cB : Nat
  wB : Nat
  /-- The thread that issued last (R41). -/
  last : Nat
  /-- The next line of the scrubber (R83). -/
  scrub : Nat
  napping : Bool
  deriving DecidableEq, Repr

/-- A core that belongs to no paddock: boundaries 0, so that its whole cistern is scratch; round-robin begins with thread 0
(DESIGN CHOICE, log 27: R41 names no thread that issued last before any has). -/
def CoreS.init : CoreS :=
  { v := [], acc := [], sr := 0, srSaved := 0, ibuf := [], outstanding := 0, await := [], cB := 0,
    wB := 0, last := 3, scrub := 0, napping := false }

/-- A waiter record of a sync memory (R172, R189). -/
structure Waiter where
  team : Nat
  ctr : Nat
  n : Nat
  take : Bool
  thr : Nat
  remote : Bool
  vid : Nat
  deriving DecidableEq, Repr

/-- Where the lines of a read response go: a vector register, or local cistern lines (R167). -/
inductive ReadDest where
  | vreg (v : Nat)
  | lines (line : Nat)
  deriving DecidableEq, Repr

/-- The body of a mesh packet (R62). -/
inductive MBody where
  | write (cx line : Nat) (data : List Line)
  | readReq (cx line n : Nat) (thr : Nat) (back : ReadDest)
  | readResp (data : List Line) (thr : Nat) (back : ReadDest)
  | ack (core : Nat)
  | sem (op : SemOp) (ctr n vid : Nat) (thr : Nat)
  deriving DecidableEq, Repr

/-- A packet in the mesh (R61, R62, R64 to R66): its sender, its destination team, and the paddock that sent it. -/
structure MPkt where
  src : MeshSrc
  dst : TeamId
  pad : Nat
  body : MBody
  /-- Its flits at each place of its way: 0 the sender, i the input of the router i hops on (R64, R65). -/
  flits : List Nat
  /-- It has left the mesh and waits for the cistern port of the core it addresses (R51, R195). -/
  port : Bool
  deriving DecidableEq, Repr

/-- A pump command (R55, R169). -/
structure PumpCmd where
  /-- 0 HBM to cistern; 1 cistern to HBM; 2 cistern to sampler input. -/
  dir : Nat
  /-- The HBM paddock line, or the sampler line offset. -/
  addr : Nat
  /-- First cistern line, counted from line 0 of core c0 of the team. -/
  line : Nat
  len : Nat
  vid : Nat
  amount : Nat
  /-- The issuing thread. -/
  thr : Nat
  /-- Lines of a sampler-bound command that have arrived (R267). -/
  sent : Nat
  deriving DecidableEq, Repr

/-- A team's pump (R57, R432): its queue, oldest first, and its sluice. -/
structure PumpS where
  q : List PumpCmd
  sluiced : Bool
  /-- Device time when the queue became empty. -/
  idleAt : Nat
  deriving DecidableEq, Repr

/-- An idle pump. -/
def PumpS.init : PumpS := ⟨[], false, 0⟩

/-- One valid entry of a translation row (R185). -/
structure SemEnt where
  ctr : Nat
  u : Nat
  v : Nat
  init : Nat
  deriving DecidableEq, Repr

/-- A cascade barrier of a paddock, as its root sees it (R174, R197, R200). -/
structure Bar where
  need : Nat
  opened : Nat
  even : Nat
  odd : Nat
  span : Bool
  home : Bool
  /-- Not home: the local round has completed and its arrival has been sent (R200). -/
  sent : Bool
  deriving DecidableEq, Repr

/-- A barrier without participants. -/
def Bar.zero : Bar := ⟨0, 0, 0, 0, false, false, false⟩

/-- The resource envelope of an image (R214). -/
structure Env where
  width : Nat
  height : Nat
  role : Nat
  cisternBytes : Nat
  semCount : Nat
  barrierCount : Nat
  countersPerTeam : Nat
  splitFlows : Nat
  hbmWeight : Nat
  kvReserve : Nat
  kvPerToken : Nat
  formats : Nat
  gait : Nat
  treeMax : Nat
  features : Nat
  stepBase : Nat
  stepPer : Nat
  seed : Dword
  vocab : Nat
  maxBatch : Nat
  prefillNs : Nat
  peerHash : BitVec 256
  deriving DecidableEq, Repr

/-- The envelope of no image. -/
def Env.zero : Env := ⟨0, 0, 0, 0, 0, 0, 0, 0, 0, 0, 0, 0, 0, 0, 0, 0, 0, 0, 0, 0, 0, 0⟩

/-- Role bits (R214). -/
def Env.logits (e : Env) : Bool := e.role % 2 = 1
/-- `DRAFT`. -/
def Env.draft (e : Env) : Bool := e.role / 2 % 2 = 1
/-- `TARGET`. -/
def Env.target (e : Env) : Bool := e.role / 4 % 2 = 1
/-- `SPLIT`. -/
def Env.split (e : Env) : Bool := e.role / 8 % 2 = 1
/-- `SESSION_PART`. -/
def Env.sessionPart (e : Env) : Bool := e.role / 16 % 2 = 1

/-- The states of a paddock number (R230). -/
inductive PadState where
  | free
  | loading
  | ready
  | draining
  | fenced
  | restoring
  | joining
  deriving DecidableEq, Repr

/-- The code of R230. -/
def PadState.code : PadState → Nat
  | .free => 0 | .loading => 1 | .ready => 2 | .draining => 3 | .fenced => 4 | .restoring => 5
  | .joining => 6

/-- One session's entry in the micro-batch of a step (R260, R261, R263). -/
structure Part where
  slot : Nat
  /-- `EKIND`: 0 generate; 1 prefill chunk; 2 tree verify; 3 draft frontier. -/
  kind : Nat
  /-- The entry begins with the pending token. -/
  pend : Bool
  /-- Tokens of the turn's own prompt in it. -/
  chunk : Nat
  forced : Bool
  /-- Logit sets it yields, and the first one's number. -/
  sets : Nat
  base : Nat
  deriving DecidableEq, Repr

/-- A step in progress (R260, R263, R267). -/
structure Step where
  num : Nat
  /-- 0 plain; 1 draft; 2 target verify; and the tree level of a draft step. -/
  kind : Nat
  level : Nat
  parts : List Part
  /-- Logit sets due, and the sampler lines received so far. -/
  sets : Nat
  lines : Tbl (Option Line)
  /-- The declared threads have all arrived and the residue check has passed (R201). -/
  ended : Bool
  /-- The scheduler has released it; after a restore it waits to be executed again (R266). -/
  going : Bool
  deriving DecidableEq, Repr

/-- A paddock number (R228 to R236). -/
structure Pad where
  st : PadState
  col : Nat
  row : Nat
  stage : Nat
  env : Env
  hash : BitVec 256
  /-- Committed gait, running gait, and a decided gait that waits for its boundary (R28, R442). -/
  gait : Nat
  run : Nat
  next : Option Nat
  /-- Target gait (R437); order stamp of the last decided raise (R440, R441). -/
  target : Nat
  raised : Nat
  peer : Nat
  sem : Tbl (Option SemEnt)
  /-- `START` bits by core index. -/
  start : Tbl Nat
  /-- Start addresses of started threads: 4 × core index + thread. -/
  pcs : Tbl Nat
  bars : Tbl Bar
  /-- The state in which the release of the last step, or the loader, left barrier 0 (R203). -/
  bar0 : Bar
  /-- Participants: key b × 4720 + team index (R216). -/
  masks : Tbl (BitVec 256)
  /-- Each participant's next round: key b × 2^21 + 4 × core index + thread (R174). -/
  rounds : Tbl Nat
  /-- The participants' rounds then. -/
  rounds0 : Tbl Nat
  /-- Segments of the KV reservation, in order (R92). -/
  kv : List Nat
  /-- KV pages in use: page index to slot + 1 (R105). -/
  pages : Tbl Nat
  /-- Core cycles counted by the paddock's clock, in tenths (R10, R27). -/
  cycles : Nat
  step : Option Step
  stepNum : Nat
  tampered : Bool
  /-- The tampered mark takes effect at the commit of the step in progress (R210). -/
  tamperStep : Bool
  /-- It was ready, draining or joining when it was fenced: the state to go back to. -/
  back : PadState
  /-- Fenced: it is quiet (R232); the action chosen, by its code of R462, 0 while the window runs (R467). -/
  quiet : Bool
  act : Nat
  /-- Its staged image is damaged and a restore needs it: it stays fenced (R235). -/
  dead : Bool
  /-- Numbers of the records whose action is still to be completed (R462 `DONE`). -/
  recs : List Nat
  /-- A contained fault struck that faults every running turn (R81, R97, R235). -/
  doomed : Bool
  /-- Slots whose running turn a fault of the step in progress closes (R97). -/
  faulted : List Nat
  /-- The peer of the split has joined (R238); whether a mismatch has been raised. -/
  joined : Bool
  mismatch : Bool
  /-- The peer has answered this part's join message (R238). -/
  answered : Bool
  /-- The session part has not said that its accepted turns have closed (R239). -/
  peerBusy : Bool
  /-- Hop count of the path to the peer (R258): as its join message came, then as the reservation's grant gave it (log 20). -/
  hops : Nat
  /-- The peer part's paddock number (R238). -/
  peerPad : Nat
  /-- The peer drains (R239). -/
  peerDrain : Bool
  /-- Ring pairs that await the load's or the unload's completion, with their cookies. -/
  waiters : List (Nat × Nat)
  closed : Nat
  /-- Flow numbers of a split part (R381). -/
  flows : List Nat
  deriving DecidableEq, Repr

/-- A free paddock number. -/
def Pad.init : Pad :=
  { st := .free, col := 0, row := 0, stage := 0, env := .zero, hash := 0, gait := 0, run := 0,
    next := none, target := 0, raised := 0, peer := 0, sem := [], start := [], pcs := [], bars := [], bar0 := .zero, masks := [],
    rounds := [], rounds0 := [], kv := [], pages := [], cycles := 0, step := none, stepNum := 0,
    tampered := false, tamperStep := false, back := .ready, quiet := false, act := 0, dead := false, recs := [],
    doomed := false, faulted := [], joined := false, mismatch := false, answered := false, peerBusy := false, hops := 1, peerPad := 64, peerDrain := false, waiters := [],
    closed := 0, flows := [] }

/-- What an HBM segment holds (R86, R89, R90, R100). -/
inductive Seg where
  /-- Free, not zeroed. -/
  | dirty
  /-- Free and zeroed. -/
  | clean
  /-- Part of the staged image of a stage number. -/
  | stage (n : Nat)
  /-- Part of a paddock's KV reservation. -/
  | kv (p : Nat)
  | retired
  deriving DecidableEq, Repr

/-- A STAGE whose check reached its copy: pair, cookie, header and section table as read, and the window offset it
reads from; none for a host chunk list (R220, R221). -/
structure StageReq where
  pair : Nat
  cookie : Nat
  head : List Byte
  win : Option Nat
  /-- `CHUNKS`, and the entries of the host's chunk list as they were read (R220, R292). -/
  count : Nat
  list : List (Option ChunkEntry)
  deriving DecidableEq, Repr

/-- A staged image, or one whose copy runs (R221, R222). -/
structure Stage where
  hash : BitVec 256
  env : Env
  len : Nat
  /-- Where `HBM_WEIGHTS` lies in the image. -/
  wOff : Nat
  /-- Segments of the image without its weights, and of its weights. -/
  segsI : List Nat
  segsW : List Nat
  refs : Nat
  damaged : Bool
  releasing : Bool
  /-- The copy is not done. -/
  copying : Bool
  /-- The first 4 KiB as step 1 read them. -/
  head : List Byte
  /-- The descriptors that complete with the copy; the first started it (R221). -/
  reqs : List StageReq
  deriving DecidableEq, Repr

/-- An entry of the retirement list (R100). -/
structure Retired where
  seg : Nat
  pending : Bool
  cause : Nat
  deriving DecidableEq, Repr

/-- HBM: contents, error marks, segments, images (R86 to R101). -/
structure HbmS where
  /-- Bytes by device address. -/
  mem : List Host.Cell
  /-- Error marks by 32 B unit: 1 correctable, 2 uncorrectable or poisoned (R97, R98). -/
  err : Tbl Nat
  /-- Device time + 1 of a unit's first corrected read (R100). -/
  ceSeen : Tbl Nat
  segs : Tbl Seg
  retired : List Retired
  /-- Stages 0 to 1,023. -/
  stages : Tbl (Option Stage)
  /-- The segment after the last one tested (R476). -/
  testNext : Nat
  /-- Segments under test. -/
  testing : List Nat
  /-- Free spill pool entries: index and host address (R111). -/
  spillFree : List (Nat × Nat)
  /-- Spilled pages: pool index to host address. -/
  spillUsed : List (Nat × Nat)
  /-- Slots whose session is being spilled, page by page (R108, R110). -/
  spilling : List Nat
  /-- A `RECALL` has pages still to read back (R112). -/
  recalling : Bool
  /-- The background zeroing after a cold reset has ended (R90, R114). -/
  zeroed : Bool
  /-- Page tables: key 65536 × slot + entry (R105). -/
  pt : Tbl Word
  deriving DecidableEq, Repr

/-- HBM after a cold reset: nothing zeroed, nothing held (R90). -/
def HbmS.init : HbmS :=
  { mem := [], err := [], ceSeen := [], segs := [], retired := [], stages := [], testNext := 0,
    testing := [], spillFree := [], spillUsed := [], spilling := [], recalling := false, zeroed := false, pt := [] }

/-- A unit of the fault collector (R466). -/
inductive FUnit where
  | paddock (p : Nat)
  /-- Every paddock with a team in a strip (R436). -/
  | strip (d : Nat)
  | team (k : Nat)
  | session (n : Nat)
  /-- The sessions whose entries or prompt tokens a failing unit holds (R97). -/
  | sessions (l : List Nat)
  | port (p : Nat)
  | engine (n : Nat)
  | hostif
  | pair
  | store
  | none
  deriving DecidableEq, Repr

/-- A report that a source holds for the collector (R457, R460). -/
structure Report where
  source : Nat
  cls : Nat
  d0 : Word
  d1 : Word
  d2 : Word
  d3 : Word
  unit : FUnit
  time : Nat
  railBroken : Bool
  injected : Bool
  /-- Left over from an earlier collector cycle (R460). -/
  held : Bool
  /-- It comes from outside the modelled commands or from an injection: nothing has acted on it yet. -/
  ext : Bool
  deriving DecidableEq, Repr

end Sys2Proof.Machine
end

