-- ==== Sys2Proof/Machine/NetTypes.lean ====
section
/-! DEFINITION. The plain-data types of the Guica link and of the fabric: ports, packets, flows,
responder contexts, tables and reservations. -/

namespace Sys2Proof.Machine

/-- What a fabric packet carries (R368, R370, R373, R382, R386, R402). -/
inductive FabMsg where
  | hello (h : HelloPkt)
  | discover (master : Dword) (epoch : BitVec 16)
  | report (r : ReportPkt)
  | assign (target : Dword) (id : BitVec 12)
  | table (t : TablePkt)
  | commit (epoch : BitVec 16)
  | request (m : TMsg)
  | response (m : TMsg)
  | resv (r : ResvPkt)
  | heartbeat (role : Nat) (fast armed : Bool) (epoch : Word)
  | mirror (items : List MirrorItem) (c : CommitRec)
  | mirrorAck (epoch : Dword)
  | pairCtl (code : Word)
  deriving DecidableEq, Repr

/-- The `TYPE` of R368 and R402. -/
def FabMsg.type : FabMsg → Nat
  | .hello _ => 1 | .discover _ _ => 2 | .report _ => 3 | .assign _ _ => 4 | .table _ => 5
  | .commit _ => 6 | .request _ => 7 | .response _ => 8 | .resv _ => 9 | .mirror _ _ => 10
  | .mirrorAck _ => 11 | .heartbeat _ _ _ _ => 12 | .pairCtl _ => 13

/-- A packet as its bytes: the 16 B header and the payload (R368). -/
structure RawPkt where
  bytes : List Byte
  deriving DecidableEq, Repr

/-- A packet that waits at a link: its channel, whether it is reserved, whether it has begun, and its bytes not yet sent
(R368, R387). -/
structure Chunk where
  vc : Bool
  res : Bool
  begun : Bool
  data : List Byte
  deriving DecidableEq, Repr

/-- The transmit side of a lane: the bits that do not fill a codeword yet, the scrambler's state, and the codewords sent since training
(R344). -/
structure Coder where
  bits : List Bool
  scr : BitVec 58
  words : Nat
  deriving DecidableEq, Repr

/-- A coder before training. -/
def Coder.init : Coder := ⟨[], 0, 0⟩

/-- An announced flit boundary: its direction, the lane that leaves (18: none), the spare that takes its position (18: none), its flit
count, the sequence of this module's own announcement, and the state that a leaving lane takes where that is settled (R328, R354). -/
structure Bound where
  rx : Bool
  old : Nat
  spare : Nat
  count : Nat
  seq : Option Nat
  st : Option Nat
  deriving DecidableEq, Repr

/-- One link: that of a port, or a routed link (R336, R342 to R361, R365). -/
structure LPort where
  /-- 0 down; 1 starting or training; 2 up. -/
  st : Nat
  /-- `LINK_CFG.RULE` as training took it; the error-rate rule is in force (R353, R356). -/
  rule : Nat
  rateRule : Bool
  /-- What the far end has said of its training parameters (R353). -/
  far : Option LinkParams
  /-- Coalesced mode is in force. -/
  coalesced : Bool
  mismatch : Bool
  windowLimited : Bool
  /-- The capacity of the transmit and receive direction that the fabric layer has been told, in 0.1 GB/s (R350, R355). -/
  txCap : Nat
  rxCap : Nat
  /-- 0 awake; 1 light; 2 deep. -/
  txSleep : Nat
  rxSleep : Nat
  /-- `DEEP_IDLE` in the far end's sleep notice, where that direction may go deep; when the notice arrived; when the direction woke;
  when its re-track window ends (R358 to R360). -/
  farDeep : Option Nat
  rxSince : Nat
  rxWoke : Nat
  trackEnd : Nat
  /-- When the last data or control flit went out, and when the transmit direction entered light sleep (R359). -/
  busyAt : Nat
  txSince : Nat
  /-- A sleep notice waits for its echo: its message sequence. -/
  sleepSeq : Option Nat
  rtt : Nat
  txNext : Nat
  rxNext : Nat
  /-- Data flits sent since link-up, up to 2,048 (R348). -/
  sent : Nat
  /-- A data flit has been accepted since link-up. -/
  rxAny : Bool
  /-- Unacknowledged data flits, oldest first: sequence, channel, payload (R346). -/
  replay : List (Nat × Bool × List Byte)
  /-- Packets that wait for a sequence, a credit or the wake. -/
  txq : List Chunk
  /-- The receive buffers: payloads of accepted data flits that the fabric layer has not taken (R351). -/
  bufReq : List (List Byte)
  bufRsp : List (List Byte)
  credReq : Nat
  credRsp : Nat
  /-- Last `CRED` read per channel. -/
  seenReq : Nat
  seenRsp : Nat
  /-- Flits consumed per channel since link-up, and since the count was last carried. -/
  usedReq : Nat
  usedRsp : Nat
  owedReq : Nat
  owedRsp : Nat
  /-- The channel of the next flit's `CRED`. -/
  credVc : Bool
  /-- Data flits accepted since the last `ACK_V`. -/
  owed : Nat
  /-- A duplicate, or the oldest flit's 500 ns, ask for an acknowledgement (R347, R348). -/
  dup : Bool
  /-- Sequences of control messages still to be echoed (R352). -/
  echoes : List Byte
  txEpoch : Nat
  rxEpoch : Nat
  /-- Flits sent and received since the last width change of the direction (R352). -/
  flits : Nat
  rxFlits : Nat
  /-- Sequences of the control messages handled last. -/
  ctlSeen : List Nat
  /-- Next control message sequence, and the unechoed messages with their repeats (R352). -/
  ctlNext : Nat
  ctl : List (Nat × CtlMsg × Nat)
  /-- Replay expiries in a row without progress (R356). -/
  expiries : Nat
  /-- Device times of the replays of the last 1 ms (R356). -/
  replays : List Nat
  /-- A packet that goes on in the next flit, per channel. -/
  partReq : List Byte
  partRsp : List Byte
  /-- Lanes in use, in position order, of the transmit and receive directions (R344). -/
  txMap : List Nat
  rxMap : List Nat
  /-- The transmit lanes' coders, by wavelength (R344). -/
  coders : Tbl Coder
  /-- A position's data goes out on both wavelengths: the old lane and the spare (R328 step 4). -/
  twin : Option (Nat × Nat)
  /-- Announced width changes that wait for their boundary (R328, R354). -/
  bounds : List Bound
  deriving DecidableEq, Repr

/-- A port that is down. -/
def LPort.init : LPort :=
  { st := 0, rule := 0, rateRule := false, far := none, coalesced := false, mismatch := false, windowLimited := false, txCap := 0,
    rxCap := 0, txSleep := 0, rxSleep := 0, farDeep := none, rxSince := 0, rxWoke := 0, trackEnd := 0, busyAt := 0, txSince := 0, sleepSeq := none, rtt := 0,
    txNext := 0, rxNext := 0, sent := 0, rxAny := false, replay := [], txq := [], bufReq := [], bufRsp := [], credReq := 0, credRsp := 0,
    seenReq := 0, seenRsp := 0, usedReq := 0, usedRsp := 0, owedReq := 0, owedRsp := 0, credVc := false, owed := 0, dup := false,
    echoes := [], txEpoch := 0, rxEpoch := 0, flits := 0, rxFlits := 0, ctlSeen := [], ctlNext := 0, ctl := [], expiries := 0,
    replays := [], partReq := [], partRsp := [], txMap := [], rxMap := [], coders := [], twin := none, bounds := [] }

/-- A lane: one wavelength of one port in one direction (R319, R320). -/
structure Lane where
  /-- State code of R320. -/
  st : Nat
  pos : Nat
  locked : Bool
  /-- `MARGIN_START`, and the live margin in 0.1 dB. -/
  start : Nat
  live : Nat
  mislocks : Nat
  /-- F_s and the last figure of merit, in 0.01 dB. -/
  fs : Int
  fom : Int
  /-- Estimates in a row below 2.0 dB and below 1.0 dB (R327). -/
  below2 : Nat
  below1 : Nat
  /-- A margin test is due: at a port start, or after the lane left service (R322, R330, R361). -/
  testing : Bool
  /-- The result of the port start's test. -/
  result : Option Int
  /-- Failed as not admitted, or left service: a per-engine or warm reset keeps it failed, and no port restart returns a routed link
  (R325, R336). -/
  failed : Bool
  /-- Failed under R317 or R318, or as a spare in training: no port start tests it. -/
  dead : Bool
  deriving DecidableEq, Repr

/-- A dark lane. -/
def Lane.init : Lane := ⟨0, 0, false, 0, 0, 0, 0, 0, 0, 0, false, none, false, false⟩

/-- One wavelength of a laser fibre (R310 to R313). -/
structure Laser where
  /-- Last power in 0.01 dBm; none where no tone has been measured. -/
  power : Option Int
  pilot : Bool
  /-- `LASER_LOW` is logged until the power has risen. -/
  low : Bool
  active : Bool
  deriving DecidableEq, Repr

/-- A wavelength that has not been measured. -/
def Laser.init : Laser := ⟨none, false, false, false⟩

/-- A heater loop (R315 to R317). -/
structure LoopS where
  drive : Nat
  locked : Bool
  atLimit : Bool
  /-- It sweeps its full range: the settings store holds no code for it, or it has not locked at the code (R322 step 2). -/
  sweep : Bool
  deriving DecidableEq, Repr

/-- A loop that is held off. -/
def LoopS.init : LoopS := ⟨0, false, false, false⟩

/-- An optical engine (R325, R335, R339, R362). -/
structure Eng where
  on : Bool
  fenced : Bool
  trained : Bool
  /-- A per-engine reset is in progress (R325, R339). -/
  resetting : Bool
  /-- The spares in use and the data lanes that they replace: base die to engine, engine to base die. -/
  down : List (Nat × Nat)
  up : List (Nat × Nat)
  deriving DecidableEq, Repr

/-- An engine that is off. -/
def Eng.init : Eng := ⟨false, false, false, false, [], []⟩

/-- A calibration (R331 to R334). -/
structure Cal where
  pair : Nat
  cookie : Nat
  wave : Nat
  since : Nat
  /-- A position has been moved (R334). -/
  migrated : Bool
  deriving DecidableEq, Repr

/-- A migration, or the replacement of a lane that is gone (`old` 18): the old lane, the spare, the position. -/
structure Migr where
  old : Nat
  spare : Nat
  pos : Nat
  /-- The spare has passed, and its boundary is announced. -/
  passed : Bool
  deriving DecidableEq, Repr

/-- The optical side of a port (R322 to R332). -/
structure OPort where
  /-- 0 not starting; 1 its tests run; 2 its lanes are selected. -/
  phase : Nat
  tx : Option Migr
  rx : Option Migr
  /-- Receive lanes whose migration waits. -/
  wait : List Nat
  /-- Lanes that leave service to be retrained (R361). -/
  retrain : List Nat
  /-- Positions at link-up, transmit and receive. -/
  nTx : Nat
  nRx : Nat
  cal : Option Cal
  /-- The wavelength that the far end calibrates (R332). -/
  farCal : Option Nat
  deriving DecidableEq, Repr

/-- A port that is not starting. -/
def OPort.init : OPort := ⟨0, none, none, [], [], 0, 0, none, none⟩

/-- A spare laser request of a wavelength: the laser fibre it serves, since when, answered (R313). -/
structure SpareReq where
  fibre : Nat
  since : Nat
  granted : Bool
  deriving DecidableEq, Repr

/-- The optical engines, lasers and the laser sideband (R309 to R339). -/
structure OptS where
  eng : Tbl Eng
  /-- Key 36 × port + 18 × direction + wavelength; direction 1 receives. -/
  lanes : Tbl Lane
  /-- Key 18 × laser fibre + wavelength. -/
  lasers : Tbl Laser
  /-- Key 576 × engine + 144 j + 8 k + l - 1. -/
  loops : Tbl LoopS
  ports : Tbl OPort
  spares : Tbl (Option SpareReq)
  /-- Laser fibres whose tones are all absent. -/
  lost : List Nat
  /-- The ODL-18 has answered `IDENT`; its dynamic address has been given. -/
  present : Bool
  addressed : Bool
  /-- Staged ring calibration: heater codes by loop key, and the engines held (R339, R499). -/
  snap : Tbl Nat
  held : List Nat
  deriving DecidableEq, Repr

/-- The optics after a cold reset. -/
def OptS.init : OptS :=
  { eng := [], lanes := [], lasers := [], loops := [], ports := [], spares := [], lost := [], present := false,
    addressed := false, snap := [], held := [] }

/-- The fabric state of a port or of a routed link (R371, R380). -/
structure FPort where
  st : Nat
  node : Nat
  valid : Bool
  port : Nat
  wave : Nat
  serial : Dword
  /-- `PLANE_MISMATCH` has been logged since link-up. -/
  logged : Bool
  /-- `FABRIC_CTRL.PLANE` as the link's last coming up took it: 1 is plane B (R390). -/
  planeB : Bool
  deriving DecidableEq, Repr

/-- A port in state down. -/
def FPort.init : FPort := ⟨0, 0, false, 0, 0, 0, false, false⟩

/-- A request on a flow that has no response yet (R382). -/
structure Asked where
  txid : Nat
  msg : TMsg
  retry : Nat
  res : Bool
  first : Nat
  last : Nat
  deriving DecidableEq, Repr

/-- A flow context (R381, R382): its peer, the paddock it serves, the next transaction, the unanswered
requests, and the requests that wait while 256 are unanswered. -/
structure Flow where
  peer : Nat
  pad : Nat
  next : Nat
  asked : List Asked
  held : List (TMsg × Bool)
  deriving DecidableEq, Repr

/-- A responder context (R383): newest executed transaction and the cached responses. -/
structure Resp where
  newest : Nat
  cache : List (Nat × TMsg)
  deriving DecidableEq, Repr

/-- A reservation through this module: the link it comes in by and the one it leaves by (544 where it starts or ends here), flow,
source, destination, rate in 0.1 GB/s, which it takes in each direction of both ports (R385, R386). -/
structure Resv where
  inp : Nat
  port : Nat
  flow : Nat
  src : Nat
  dst : Nat
  rate : Nat
  deriving DecidableEq, Repr

/-- A reservation request passed on, waiting for its answer: where it came from (a link, 544 for a turn of this module, 545
for a lowering), its flow and source, and the rate held before. -/
structure Asking where
  input : Nat
  flow : Nat
  src : Nat
  old : Nat
  deriving DecidableEq, Repr

/-- One set of tables (R377, R378, R380). -/
structure Tables where
  dest : Tbl Word
  turn : Tbl Word
  rlink : Tbl (BitVec 5)
  modules : Nat
  epoch : Nat
  deriving DecidableEq, Repr

/-- No table entries. -/
def Tables.empty : Tables := ⟨[], [], [], 0, 0⟩

/-- The fabric layer and the transport (R368 to R390). -/
structure FabS where
  /-- Key: the link. -/
  ports : Tbl FPort
  node : Option Nat
  /-- 0 idle; 1 discovering; 2 running; 3 unadmitted; 4 master conflict. -/
  state : Nat
  act : Tables
  inact : Tables
  /-- Epoch and parent link of the discovery that was joined last; its master's serial. -/
  epoch : Nat
  parent : Option Nat
  master : Dword
  /-- The link each serial number's report arrived on (R373). -/
  paths : List (Dword × Nat)
  /-- As master: the reports of this discovery, and the serials that have answered their tables. -/
  reports : List ReportPkt
  /-- A report has arrived since the tables were last computed (R373 step 4). -/
  fresh : Bool
  answered : List Dword
  sentTo : List Dword
  /-- Packets for this module that have arrived: link, bytes. -/
  rxq : List (Nat × RawPkt)
  flows : Tbl (Option Flow)
  /-- Responder contexts: key 8192 × source + flow. -/
  resp : Tbl (Option Resp)
  resv : List Resv
  /-- Reservation requests that wait for their answer. -/
  asking : List Asking
  deriving DecidableEq, Repr

/-- The fabric layer after a cold reset. -/
def FabS.init : FabS :=
  { ports := [], node := none, state := 0, act := .empty, inact := .empty, epoch := 0,
    parent := none, master := 0, paths := [], reports := [], fresh := false, answered := [], sentTo := [], rxq := [],
    flows := [], resp := [], resv := [], asking := [] }

/-- What the module puts out, in order: the one stream of everything that leaves it. -/
inductive Out where
  /-- A completion ring entry of a pair: pair, index, 32 B (R294). -/
  | completion (q index : Nat) (e : BitVec 256)
  /-- A result ring entry (R296). -/
  | record (q index : Nat) (e : BitVec 256)
  /-- An event ring entry (R299). -/
  | event (index : Nat) (e : BitVec 256)
  /-- An MSI-X message of a vector: the address and the data of its table entry (R277, R301). -/
  | msix (v : Nat) (addr : Dword) (data : Word)
  /-- A request to read a doorbell line into the Shared state (R281). -/
  | readShared (d : Door)
  /-- The acknowledgement of a snoop that takes a doorbell line away (R281). -/
  | snoopAck (d : Door)
  /-- Data of a host read of BAR0, or of BAR2: offset, bytes (R14, R277). -/
  | regRead (bar2 : Bool) (off : Nat) (data : List Byte)
  /-- Data of a management-bus read (R516). -/
  | mi3cRead (off : Nat) (data : List Byte)
  /-- A back-invalidate snoop before the module reads window bytes for its own use: offset, length (R275). -/
  | backInval (off n : Nat)
  /-- A read of host memory for the copy of a stage: a chunk's address, length (R220). -/
  | chunkRead (addr n : Nat)
  /-- Data of a CXL.mem read, with its poison mark (R103). -/
  | memRead (off : Nat) (data : List Byte) (poison : Bool)
  /-- A full-line write of a spilled page to host memory: pool page address, bytes (R108). -/
  | spill (addr : Nat) (data : List Byte)
  /-- A request to read a spilled page back (R109). -/
  | readBack (addr : Nat)
  /-- A flit sent on a link, and the field levels that its lanes send as it goes out: wavelength and levels (R314, R341, R344). -/
  | flit (l : Nat) (f : Flit) (lanes : List (Nat × List Int))
  /-- The training burst of 512 symbols and the PRBS31 pattern on a spare (R328 step 2). -/
  | trainBurst (p k : Nat)
  /-- The wake of a direction: the burst of 512 symbols, after the gated carrier where it was in deep sleep (R358). -/
  | wakeBurst (l : Nat) (deep : Bool)
  /-- A fabric packet that this module originates, before it is cut into flits: link. -/
  | packet (l : Nat) (m : FabMsg)
  /-- ENTDAA on the laser sideband: the dynamic address given (R312). -/
  | sidebandDaa (addr : Nat)
  /-- A laser sideband frame: fibre or module, command, argument, try (R312). -/
  | sideband (cmd arg : Byte) (tries : Nat)
  /-- A transition of the heartbeat wire (R401). -/
  | heartbeatWire
  /-- The halter line's rails as this module drives them (R398). -/
  | halter (p n : Bool)
  /-- The response to a DOE command: result and data (R495). -/
  | doe (cmd result : Nat) (data : List Byte)
  /-- The ALERT# pin's new level (R515). -/
  | alert (low : Bool)
  deriving DecidableEq, Repr

end Sys2Proof.Machine

namespace Sys2Proof.Config

/-- The payload bytes of a fabric message whose layout the manual does not give (log 16). -/
opaque msgBytes : Sys2Proof.Machine.FabMsg → List Byte

/-- The payload bytes of a control flit; the manual gives no layout of its messages (log 16). -/
opaque ctlBytes : List (Byte × CtlMsg) → List Byte → List Byte

end Sys2Proof.Config
end

