-- ==== Sys2Proof/Machine/HostTypes.lean ====
section
/-! DEFINITION. The plain-data types of the host interface, of sessions and turns, of the fault
collector, of clocks, power and temperature, and of the redundant pair. -/

namespace Sys2Proof.Machine

/-- An entry that the module writes to a completion or result ring (R294, R296). -/
inductive Entry where
  /-- A completion of fixed content: pair, `TAG`, `STATUS`, `DTYPE`, flags, `OBJ`, `DETAIL`; how many
  reserved entries it uses up (R284); whether it is the only completion of a load, a stage, an unload or
  another descriptor whose check has passed (R293). -/
  | comp (q tag status dtype flags obj detail : Nat) (noIrq : Bool) (resv : Nat) (last : Bool)
  /-- The closing completion of the oldest turn of a slot, with its status (R294). -/
  | closing (slot status flags : Nat)
  /-- A result record of the oldest turn of a slot: sequence, token, flags (R296). -/
  | record (slot seq token flags : Nat)
  /-- An `ACCEPTED` with `REPLAYED` for the turn of a slot with a given `TAG` (R305, R412). -/
  | replayed (slot tag : Nat)
  deriving DecidableEq, Repr

/-- A turn entry (R243), with what its completions need beside it. -/
structure Turn where
  acceptT : Nat
  firstDl : Nat
  /-- I, in µs. -/
  interval : Nat
  running : Bool
  suspended : Bool
  tampered : Bool
  tries : Nat
  blocks : List Nat
  prompt : List Word
  /-- Tokens of its own prompt prefilled so far. -/
  done : Nat
  /-- A first chunk has been given (R263 `EFLAGS`[1]). -/
  begun : Bool
  gen : Nat
  /-- Records so far, and the last one's sequence. -/
  written : Nat
  lastSeq : Option Nat
  tag : Nat
  pair : Nat
  noIrq : Bool
  /-- Completion deadline, and the bound of the next record (R251). -/
  cdl : Nat
  bound : Nat
  /-- Its `ACCEPTED` with `REPLAYED` has not been written yet (R306). -/
  replay : Bool
  /-- It has reached its end; its closing completion, with this status, is being written. -/
  ended : Option Nat
  deriving DecidableEq, Repr

/-- What is still to be written for a turn that a module hands back as it becomes standby, which holds no session any more: its slot,
the result ring and node of its session, its records (sequence, token, flags), and the status and flags of its closing (R30, R33). -/
structure Orphan where
  slot : Nat
  ring : Nat
  node : Nat
  turn : Turn
  recs : List (Nat × Nat × Nat)
  status : Nat
  flags : Nat
  deriving DecidableEq, Repr

/-- A node of a candidate tree (R270): token, parent node, level, score. -/
structure Node where
  token : Nat
  parent : Nat
  level : Nat
  score : Word
  deriving DecidableEq, Repr

/-- A session slot (R242), with the output it holds back and its candidate tree. -/
structure Slot where
  /-- State code of R241. -/
  st : Nat
  paddock : Nat
  draft : Nat
  spec : Bool
  pace : Nat
  ring : Nat
  levels : Nat
  /-- Index of the oldest turn entry. -/
  oldest : Nat
  turns : List Turn
  nextSeq : Nat
  position : Nat
  lastToken : Nat
  pending : Bool
  seed : Dword
  temperature : Word
  topP : Word
  topK : Nat
  stops : List (Nat × Bool)
  widths : List Nat
  openedT : Nat
  lastCloseT : Nat
  lastStatus : Nat
  /-- Node ID of the module that opened the session (R296, R412). -/
  node : Nat
  /-- A `SESSION_CLOSE` that waits: its pair and cookie. -/
  closing : Option (Nat × Nat)
  /-- The paddock's unload closes it (R237). -/
  unloading : Bool
  /-- Output held back, oldest first, and since when (R264). -/
  held : List Entry
  heldAt : Nat
  tree : List Node
  /-- Draft levels of the round done (R270). -/
  level : Nat
  /-- Tokens of the prefill chunk that the draft has appended in this round. -/
  drafted : Nat
  /-- Nodes accepted in the previous round, as `PREV_PATH`. -/
  prevPath : Nat
  /-- Records of open turns in the token log: sequence, token, `END` and `LAST`, and the turn's `TAG` (R296, R417). -/
  log : List (Nat × Nat × Nat × Nat)
  /-- Highest sequence whose write has been issued, plus 1 (R403 `RELEASE`). -/
  issued : Nat
  /-- Page table entries whose page has been mirrored (R406). -/
  kvSent : Nat
  deriving DecidableEq, Repr

/-- A free slot: zero (R246). -/
def Slot.free : Slot :=
  { st := 0, paddock := 0, draft := 0, spec := false, pace := 0, ring := 0, levels := 0, oldest := 0,
    turns := [], nextSeq := 0, position := 0, lastToken := 0, pending := false, seed := 0,
    temperature := 0, topP := 0, topK := 0, stops := [], widths := [], openedT := 0,
    lastCloseT := 0, lastStatus := 0, node := 0, closing := none, unloading := false, held := [],
    heldAt := 0, tree := [], level := 0, drafted := 0, prevPath := 0, log := [], issued := 0, kvSent := 0 }

/-- A `TURN` whose prompt has been read and that awaits admission (R250). -/
structure Reading where
  slot : Nat
  gen : Nat
  tag : Nat
  noIrq : Bool
  prompt : List Word
  blocks : List Nat
  /-- The prompt store had too few blocks. -/
  short : Bool
  /-- The path reservation of a split part: 0 not asked; 1 asked; 2 granted; 3 refused (R386). -/
  resv : Nat
  /-- Its place in the order of fetching (R255). -/
  place : Nat
  deriving DecidableEq, Repr

/-- A ring pair (R279 to R306). -/
structure RPair where
  /-- 0 disabled; 1 enabled; 2 draining; 3 error. -/
  st : Nat
  /-- Descriptors consumed; last valid `SQ_TAIL`. -/
  sqHead : Nat
  sqTail : Nat
  cqTail : Nat
  cqHead : Nat
  rqTail : Nat
  rqHead : Nat
  /-- Completion entries reserved (R284). -/
  reserved : Nat
  cqFull : Bool
  /-- Descriptors fetched and not yet checked, oldest first, and the place of each in the order of fetching of all pairs. -/
  fetched : List Line
  order : List Nat
  reading : Option Reading
  /-- A `FENCE` that has not completed: its cookie and scope. -/
  fence : Option (Nat × Nat)
  /-- Descriptors past their check whose only completion is not written yet (R293). -/
  opens : Nat
  /-- Completions held while the ring was disabled (R304). -/
  held : List Entry
  /-- Replayed and held entries that wait for room after an enable (R305, R306). -/
  replay : List Entry
  /-- Closing slots have still to be reserved again (R306). -/
  unreserved : Bool
  /-- The doorbell line: 0 not held; 1 Shared; 2 being re-read; 3 being re-read and invalidated
  again (R281). -/
  door : Nat
  deriving DecidableEq, Repr

/-- A disabled pair. -/
def RPair.init : RPair :=
  { st := 0, sqHead := 0, sqTail := 0, cqTail := 0, cqHead := 0, rqTail := 0, rqHead := 0, reserved := 0,
    cqFull := false, fetched := [], order := [], reading := none, fence := none, opens := 0, held := [], replay := [],
    unreserved := false, door := 0 }

/-- An interrupt vector: its entry of the MSI-X table (message address, message data, mask bit), its pending bit, and its
moderation count (R277, R301). -/
structure Vec where
  addr : Dword
  data : Word
  masked : Bool
  pend : Bool
  count : Nat
  since : Nat
  deriving DecidableEq, Repr

/-- A vector after reset: masked, its message 0, as MSI-X leaves it (log 18). -/
def Vec.init : Vec := ⟨0, 0, true, false, 0, 0⟩

/-- Receiver settings of a CXL lane (R524): peaking, gain, the decision feedback taps from tap 1, and the clock recovery bandwidth. -/
structure EqLane where
  ctle : Nat
  vga : Nat
  taps : List Int
  cdrBw : Nat
  deriving DecidableEq, Repr

/-- The host interface (R275 to R307). -/
structure HostS where
  /-- The receiver settings of the physical CXL lanes, as the ROM has read them (R425, R524). -/
  eq : List EqLane
  pairs : Tbl RPair
  vecs : Tbl Vec
  evtOn : Bool
  evtTail : Nat
  evtHead : Nat
  evtDoor : Nat
  /-- Round-robin: the pair visited, and descriptors taken at this visit (R284). -/
  visit : Nat
  taken : Nat
  /-- Descriptors fetched from all pairs. -/
  fetches : Nat
  /-- The device time of the last re-read of the held doorbell lines by polling (R282). -/
  polled : Nat
  /-- A host-interface reset is in progress. -/
  busy : Bool
  /-- Enables written before Swizen is ready (R428). -/
  early : List Nat
  earlyEvt : Bool
  degraded : Bool
  ideIo : Bool
  ideCm : Bool
  deriving DecidableEq, Repr

/-- The host interface after a cold reset. -/
def HostS.init : HostS :=
  { eq := [], pairs := [], vecs := [], evtOn := false, evtTail := 0, evtHead := 0, evtDoor := 0, visit := 0, taken := 0, fetches := 0, polled := 0,
    busy := false, early := [], earlyEvt := false, degraded := false, ideIo := false, ideCm := false }

/-- The session table, pace classes and the slot that `SESS_SEL` captured (R241, R248, R273). -/
structure SessS where
  slots : Tbl Slot
  /-- Live pace values of class c: a in µs, b in ns, I in µs, enabled (R248). -/
  pace : Tbl (Nat × Nat × Nat × Bool)
  captured : List Byte
  deriving DecidableEq, Repr

/-- A fault record (R462). -/
structure Rec where
  num : Nat
  source : Nat
  cls : Nat
  companion : Bool
  rflags : Nat
  action : Nat
  time : Nat
  d0 : Word
  d1 : Word
  d2 : Word
  d3 : Word
  deriving DecidableEq, Repr

/-- A contained record whose window runs, with its unit and its default action (R467). -/
structure Window where
  num : Nat
  unit : FUnit
  action : Nat
  /-- The device time at which the window ends: `WIN_US` after detection. -/
  ends : Nat
  deriving DecidableEq, Repr

/-- The fault collector (R457 to R474). -/
structure FltS where
  /-- The log, oldest first (R464). -/
  log : List Rec
  newest : Nat
  first : Option Rec
  windows : List Window
  /-- Corrected records of each source in this second; cistern events of each team (R82, R465). -/
  rate : Tbl Nat
  teamRate : Tbl Nat
  /-- Promoted in this second: sources, and 8192 + team. -/
  promoted : List Nat
  counts : Tbl Nat
  /-- Device time + 1 of a team source's last contained fault (R469). -/
  teamLast : Tbl Nat
  /-- Failed physical teams: key 60 × column + physical row. -/
  failed : List Nat
  fatal : Bool
  /-- The record that made the state fatal. -/
  fatalRec : Option Rec
  /-- Swizen has stored the fatal record (R471). -/
  stored : Bool
  /-- An armed injection (R472). -/
  inj : Option Report
  /-- Numbers of the records read through the log registers. -/
  seen : List Nat
  /-- Engines held fenced until `OE_CTRL.RESET`, and whether the store is fenced (R466, R467). -/
  held : List Nat
  storeDown : Bool
  /-- Records whose reset has not ended: engine, or 8 for the host interface, and record number. -/
  waits : List (Nat × Nat)
  /-- The host interface is fenced and awaits its reset (R466). -/
  hostDown : Bool
  deriving DecidableEq, Repr

/-- The collector after a cold reset. -/
def FltS.init : FltS :=
  { log := [], newest := 0, first := none, windows := [], rate := [], teamRate := [], promoted := [],
    counts := [], teamLast := [], failed := [], fatal := false, fatalRec := none, stored := false,
    inj := none, seen := [], held := [], storeDown := false, waits := [], hostDown := false }

/-- A temperature sensor (R443 to R447). -/
structure Sensor where
  /-- Last raw code, in 0.125 °C. -/
  temp : Int
  broken : Bool
  masked : Bool
  /-- Consecutive samples with this code; 0 before the first sample. -/
  still : Nat
  /-- Device time + 1 since when its readings have been valid again, or below its end limits: 97, 100 and 85 °C; 0 where they
  are not. -/
  validSince : Nat
  below97 : Nat
  below100 : Nat
  below85 : Nat
  deriving DecidableEq, Repr

/-- A sensor that has not been sampled. -/
def Sensor.init : Sensor := ⟨0, false, false, 0, 0, 0, 0, 0⟩

/-- An emergency cause in force (R449, R450): its code, its sensor (0 for causes 3 to 5), the strips it lowered, and whether it has
been announced. -/
structure Cause where
  code : Nat
  sensor : Nat
  strips : List Nat
  announced : Bool
  deriving DecidableEq, Repr

/-- A voltage domain (R435, R436): its level, the level it ramps to, its measured voltage. -/
structure Domain where
  level : Nat
  want : Nat
  ramping : Bool
  milliVolt : Nat
  deriving DecidableEq, Repr

/-- A domain at walk. -/
def Domain.init : Domain := ⟨0, 0, false, 600⟩

/-- A self-test (R475 to R477). -/
structure SelfT where
  pair : Nat
  cookie : Nat
  hbm : Bool
  col : Nat
  row : Nat
  width : Nat
  height : Nat
  segs : List Nat
  started : Bool
  from_ : Nat
  deriving DecidableEq, Repr

/-- Clocks, supply, gaits and temperature (R429 to R455). -/
structure PwrS where
  /-- `VIN48` has been applied: the module is out of power-off. -/
  powered : Bool
  perst : Bool
  refOk : Bool
  locked : Bool
  holdover : Bool
  /-- A reset is in progress: the logic waits for `PERST#`, for reference edges or for ROOT to lock; and whether it is a cold one. -/
  held : Bool
  cold : Bool
  /-- The ROM has found no bundle to run (R487). -/
  recovery : Bool
  /-- Ready units: key 128 × function + unit; and the device time at which each last entered ready. -/
  ready : Tbl Bool
  readyT : Tbl Nat
  domains : Tbl Domain
  sensors : Tbl Sensor
  causes : List Cause
  /-- Sensors whose throttle is in force (R445). -/
  throttle : List Nat
  vin : Nat
  iin : Nat
  /-- The input power samples of the last 1 ms, newest first (R452). -/
  samples : List Nat
  /-- Device time + 1 since when the input has met the end condition of causes 3, 4 and 5, and since when it
  has been beyond an entry limit: 39 V, 61 V, 36 V, 64 V (R449, R451). -/
  endSince : Tbl Nat
  overSince : Tbl Nat
  /-- Headroom at the moments before it rose: time, 0.1 W × 64 × 10 (R440). -/
  heads : List (Nat × Int)
  /-- Order stamps for raises (R440, R441). -/
  stamp : Nat
  tests : List (Nat × SelfT)
  nextTest : Nat
  /-- Overtemperature engines. -/
  hot : List Nat
  /-- Paddock records kept over a warm reset (R236): paddock numbers to restore, ascending. -/
  restore : List Nat
  deriving DecidableEq, Repr

/-- Clocks and supply right after a cold reset: power applied, no reference yet. -/
def PwrS.init : PwrS :=
  { powered := true, perst := true, refOk := false, locked := false, holdover := false, held := true, cold := true, recovery := false, ready := [],
    readyT := [], domains := [], sensors := [], causes := [], throttle := [], vin := 0, iin := 0, samples := [],
    endSince := [], overSince := [], heads := [], stamp := 0, tests := [], nextTest := 0, hot := [], restore := [] }

/-- The redundant pair (R393 to R415). -/
structure PairS where
  /-- Role code of R394. -/
  role : Nat
  request : Bool
  railP : Bool
  railN : Bool
  broken : Bool
  wireOk : Bool
  linkOk : Bool
  /-- Standby: armed. -/
  armed : Bool
  /-- What the partner's heartbeats showed: armed, mode, role. -/
  partnerArmed : Bool
  partnerFast : Bool
  partnerRole : Nat
  /-- A heartbeat packet has arrived. -/
  met : Bool
  unprotected : Bool
  resync : Bool
  fast : Bool
  mismatch : Bool
  epoch : Nat
  seen : Nat
  /-- Last mirror epoch sent, and acknowledged or committed. -/
  sent : Nat
  acked : Nat
  /-- Entries that wait for the acknowledgement of a batch (R407), or for the reins (R33). -/
  held : List (Nat × Entry)
  /-- The committed mirrored items of the active (R403). -/
  items : List MirrorItem
  delta : Int
  /-- A takeover in progress: its phase. -/
  phase : Option Nat
  declared : Nat
  /-- When the last heartbeat arrived on the wire, and on the link (R401). -/
  wireBeat : Nat
  linkBeat : Nat
  /-- When a batch was last acknowledged, or one sent while none waited (R408). -/
  ackAt : Nat
  /-- Number of heartbeat-wire transitions sent. -/
  beats : Nat
  /-- The heartbeat generator runs. -/
  beating : Bool
  /-- The partner's request as whole rails last showed it (R396). -/
  reads : Bool
  /-- Standby: the next batch opens a resync, whatever its epoch. -/
  fresh : Bool
  /-- Active: the epoch of the batch that ends the resync in progress. -/
  resyncEnd : Nat
  /-- Standby: the covered paddocks with the segments claimed for them (R395). -/
  cover : List (Nat × List Nat)
  /-- Standby: slot, `TAG` and ring pair of the `ACCEPTED` completions mirrored, oldest first (R412). -/
  tags : List (Nat × Nat × Nat)
  /-- Mirrored completions issued on each ring pair (R403 `RELEASE`). -/
  issued : Tbl Nat
  /-- The module has held the work it serves outside of any pair: no partner carries it on (R30). -/
  alone : Bool
  /-- Turns handed back whose records wait for the reins (R33). -/
  orphans : List Orphan
  deriving DecidableEq, Repr

/-- A module that is not paired: the partner's line reads deasserted (R396). -/
def PairS.init : PairS :=
  { role := 0, request := false, railP := false, railN := true, broken := false, wireOk := false, linkOk := false,
    armed := false, partnerArmed := false, partnerFast := false, partnerRole := 0, met := false,
    unprotected := false, resync := false, fast := false, mismatch := false, epoch := 0, seen := 0, sent := 0,
    acked := 0, held := [], items := [], delta := 0, phase := none, declared := 0, wireBeat := 0, linkBeat := 0, ackAt := 0, beats := 0,
    beating := false, reads := false, fresh := true, resyncEnd := 0, cover := [], tags := [], issued := [],
    alone := true, orphans := [] }

/-- A store command that runs: its operation of R500, and for COMMIT the bank and the header to write last. -/
structure StoreCmd where
  op : Nat
  bank : Nat
  header : List Byte
  deriving DecidableEq, Repr

/-- A firmware update that writes a slot: the slot, and the header to write last (R489). -/
structure FwUpdate where
  slot : Nat
  header : List Byte
  deriving DecidableEq, Repr

/-- A request of the attestation object type of the DOE mailbox; the last two say whether the fuse programming succeeds (R495). -/
inductive DoeCmd where
  | identity
  | report (nonce : BitVec 256)
  | challenge
  | unlock (sig : List Byte)
  | policy (w : Word) (blown : Bool)
  | advance (w : Word) (blown : Bool)
  deriving DecidableEq, Repr

/-- Fuses, the firmware flash, the settings store, and what the ROM and the signing service hold (R482 to R502). -/
structure SecS where
  /-- The fuses: root and seed with byte 0 least significant; lifecycle fuses blown; policy fuses in R484 order. -/
  root : BitVec 256
  seed : BitVec 256
  serial : Dword
  step : Word
  lifecycle : Nat
  policy : BitVec 7
  therm : BitVec 128
  /-- The policy fuses as the last cold reset read them. -/
  policyRead : BitVec 7
  /-- Flash: slot `s` at 8 MiB × s; unlisted bytes are 0. -/
  flash : List Host.Cell
  /-- The 4 MiB of the settings store; unlisted bytes are 0. -/
  store : List Host.Cell
  /-- Header and public key of the running bundle; empty where none runs. -/
  fwHead : List Byte
  fwKey : List Byte
  /-- The next leaf, and whether it lies in a committed block (R492). -/
  next : Nat
  usable : Bool
  /-- The nonce of a signing request that is held. -/
  held : Option (BitVec 256)
  /-- When it was held. -/
  heldAt : Nat
  /-- The requests of the DOE mailbox that wait for it, oldest first (R495). -/
  waiting : List DoeCmd
  challenge : Option (BitVec 256)
  /-- IDE key sets programmed since cold reset. -/
  ideGen : Nat
  cmd : Option StoreCmd
  upd : Option FwUpdate
  deriving DecidableEq, Repr

/-- A module whose fuses are unblown, with an empty flash and store (log 19). -/
def SecS.init : SecS :=
  { root := 0, seed := 0, serial := 1, step := 0x01010101, lifecycle := 0, policy := 0, therm := 0, policyRead := 0, flash := [],
    store := [], fwHead := [], fwKey := [], next := 1024, usable := false, held := none, heldAt := 0, waiting := [], challenge := none,
    ideGen := 0, cmd := none, upd := none }

/-- The management target's dynamic address, the level of ALERT#, and the upper halves of wide quantities that a read of the lower
half has latched, by upper offset (R17, R515, R516). -/
structure MgmtS where
  addr : Option (BitVec 7)
  low : Bool
  latch : Tbl (Option Word)
  deriving DecidableEq, Repr

/-- A target without a dynamic address. -/
def MgmtS.init : MgmtS := ⟨none, false, []⟩

end Sys2Proof.Machine
end

