-- ==== Sys2Proof/Machine/State.lean ====
section
/-! DEFINITION. The state of the module: the block, and the queue of commands that wait, first in,
first out. -/

namespace Sys2Proof.Machine

/-- The reasons a step can stop with a fault. -/
inductive Fault where
  /-- A CXL.mem access outside the window of R103, or to a window that the owner policy has disabled
  (R87): an address that the manual says does not exist.  Raised by `CXL_MEM_READ` and
  `CXL_MEM_WRITE`.  Safe: the model stops where no access can arrive. -/
  | outsideWindow
  deriving DecidableEq, Repr

/-- The reasons a step can be refused. -/
inductive Refusal where
  /-- The command has no meaning in the model yet.  Raised by an arm of `exec`.  Safe: the model
  stops. -/
  | notModelled (mnemonic : String)
  deriving DecidableEq, Repr

/-- The compute die and the tiers: threads, cores, cisterns, sync memories, mesh and pumps.  Threads
are keyed by `thrKey`, cores by `coreKey`, teams by `teamKey`. -/
structure Die where
  thr : Tbl Thread
  cores : Tbl CoreS
  /-- Cistern bytes: key 40960 × core key + byte address (R71). -/
  cist : List Host.Cell
  /-- Errors held in cistern words: key 5120 × core key + word; 1 to 64 a flipped bit, 65
  uncorrectable (R78). -/
  cistErr : Tbl Nat
  /-- Cistern lines that await repair after an uncorrectable read: 640 × core key + line (R81). -/
  repair : List Nat
  /-- Counter values: key 512 × team key + counter (R182). -/
  ctr : Tbl Nat
  /-- `INIT` copies of the counters that valid entries name (R186). -/
  ctrInit : Tbl (Option Nat)
  /-- Errors held in counters: 1 to 30 a flipped bit, 65 uncorrectable (R182). -/
  ctrErr : Tbl Nat
  /-- Errors held in the teams' translation copies: key 4096 × team key + virtual ID; 1 to 63 a flipped bit, 65
  uncorrectable (R186). -/
  semErr : Tbl Nat
  /-- Corrected errors that wait in the teams' cascade nodes to be found (R182, R212). -/
  nodeErr : Tbl Nat
  /-- Waiter records of every sync memory, in arrival order (R172, R189). -/
  waiters : List Waiter
  /-- Mesh packets in flight, in the order in which their heads came to where they are (R67). -/
  mesh : List MPkt
  /-- The input that each router output granted last: key 10 × team key + 2 × output, + 1 on VC_RSP (R68). -/
  grants : Tbl Nat
  pumps : Tbl PumpS
  deriving DecidableEq, Repr

/-- Everything the module holds beside the command queue. -/
structure Block where
  /-- Device time in ns (R429). -/
  time : Nat
  /-- How many free values have been drawn (logs 10 to 15). -/
  freeCtr : Nat
  die : Die
  /-- Paddock numbers 0 to 63. -/
  pads : Tbl Pad
  /-- Retired physical row of each column, with its defect mark (R35, R40); default 59. -/
  retired : Tbl (Nat × Bool)
  /-- Reports that sources hold for the collector (R457, R460). -/
  reports : List Report
  /-- Stored register fields of BAR0 by offset; the copies of a ring pair's registers at offset +
  2^22 × (pair + 1) (R14). -/
  regs : Tbl Word
  /-- Everything the module has put out, oldest first. -/
  out : List Out
  hbm : HbmS
  /-- The ports of the link. -/
  lnk : Tbl LPort
  fab : FabS
  opt : OptS
  host : HostS
  sess : SessS
  flt : FltS
  pwr : PwrS
  pair : PairS
  sec : SecS
  mgmt : MgmtS
  deriving DecidableEq, Repr

/-- The state: the block and the waiting commands. -/
structure State where
  blk : Block
  pending : List Instr
  deriving DecidableEq, Repr

/-! ### Reset (R22, R421, R522) -/

/-- The reset values of BAR0 outside the LINK blocks, by offset; the identity, policy and fuse views show the fuses of log 19. -/
def resetRegsA : Tbl Word :=
  [(0x000000, 0x3156444F), (0x000004, 0x4138342D), (0x000008, 0x01010101), (0x00000C, 0x00000100),
   (0x000010, 0x00000001), (0x000020, 0x003C3B50), (0x000024, 0x08200840), (0x000028, 0x00004030),
   (0x00002C, 0x0000001F), (0x020204, 1000), (0x030400, 0x00001401), (0x040000, 27140), (0x040308, 33000),
   (0x060000, 0x0007D005), (0x0600A0, 1000), (0x080100, 64), (0x08020C, 0x13880000)]

/-- The reset value of `LINK_CFG` of every port. -/
def resetRegsL : Tbl Word :=
  [(0x200000, 0x03E80A18), (0x201000, 0x03E80A18), (0x202000, 0x03E80A18), (0x203000, 0x03E80A18), (0x204000, 0x03E80A18),
   (0x205000, 0x03E80A18), (0x206000, 0x03E80A18), (0x207000, 0x03E80A18), (0x208000, 0x03E80A18), (0x209000, 0x03E80A18),
   (0x20A000, 0x03E80A18), (0x20B000, 0x03E80A18), (0x20C000, 0x03E80A18), (0x20D000, 0x03E80A18), (0x20E000, 0x03E80A18),
   (0x20F000, 0x03E80A18), (0x210000, 0x03E80A18), (0x211000, 0x03E80A18), (0x212000, 0x03E80A18), (0x213000, 0x03E80A18),
   (0x214000, 0x03E80A18), (0x215000, 0x03E80A18), (0x216000, 0x03E80A18), (0x217000, 0x03E80A18), (0x218000, 0x03E80A18),
   (0x219000, 0x03E80A18), (0x21A000, 0x03E80A18), (0x21B000, 0x03E80A18), (0x21C000, 0x03E80A18), (0x21D000, 0x03E80A18),
   (0x21E000, 0x03E80A18), (0x21F000, 0x03E80A18)]

/-- Reset values of the PAIR and SECURE blocks. -/
def resetRegsP : Tbl Word := [(0x310000, 0x00001F00), (0x310004, 100), (0x330004, 0x0000001A)]

/-- The block right after a cold reset (R421, R522): power applied, nothing ready, every clock stopped until ROOT locks. -/
def Block.reset : Block :=
  { time := 0, freeCtr := 0,
    die := { thr := [], cores := [], cist := [], cistErr := [], repair := [], ctr := [], ctrInit := [], ctrErr := [], semErr := [], nodeErr := [],
             waiters := [], mesh := [], grants := [], pumps := [] },
    pads := [], retired := [], reports := [], regs := resetRegsA ++ resetRegsL ++ resetRegsP, out := [], hbm := .init, lnk := [],
    fab := .init, opt := .init, host := .init, sess := { slots := [], pace := [], captured := [] }, flt := .init,
    pwr := .init, pair := .init, sec := .init, mgmt := .init }

/-- The machine right after a cold reset; no command waits. -/
def State.reset : State := ⟨Block.reset, []⟩

end Sys2Proof.Machine
end

