-- ==== Sys2Proof/Machine/Ops.lean ====
section
/-! DEFINITION. The named operations over the block that every family shares: table keys, registers,
cistern memory, reports to the collector, traps, and the issue of an instruction. -/

namespace Sys2Proof.Machine

/-! ### Keys and places -/

/-- Key of a logical team (R34). -/
def teamKey (t : TeamId) : Nat := t.col.val * 59 + t.row.val

/-- Key of a core (R38). -/
def coreKey (c : CoreId) : Nat := teamKey c.team * 64 + c.cx.val

/-- Key of a thread (R42). -/
def thrKey (t : Thr) : Nat := coreKey t.core * 4 + t.th.val

/-- Column of a team key. -/
def keyCol (k : Nat) : Nat := k / 59

/-- Logical row of a team key. -/
def keyRow (k : Nat) : Nat := k % 59

/-- Physical row of a logical row in a column whose retired row is `d` (R35). -/
def physOf (d r : Nat) : Nat := if r < d then r else r + 1

/-- Physical row of logical (column, row) (R35). -/
def physRow (b : Block) (col row : Nat) : Nat := physOf (tget (59, false) b.retired col).1 row

/-- The fault source ID of a team (R39). -/
def teamSource (b : Block) (k : Nat) : Nat := 0x400 + 60 * keyCol k + physRow b (keyCol k) (keyRow k)

/-- Paddock number `p`. -/
def padGet (b : Block) (p : Nat) : Pad := tget Pad.init b.pads p

/-- Replaces paddock number `p`. -/
def padPut (b : Block) (p : Nat) (x : Pad) : Block := { b with pads := tput Pad.init b.pads p x }

/-- Changes paddock number `p`. -/
def padMod (b : Block) (p : Nat) (f : Pad → Pad) : Block := padPut b p (f (padGet b p))

/-- Does a team lie in a paddock's rectangle? -/
def Pad.has (x : Pad) (k : Nat) : Bool :=
  decide (x.st ≠ .free) && decide (x.col ≤ keyCol k) && decide (keyCol k < x.col + x.env.width)
    && decide (x.row ≤ keyRow k) && decide (keyRow k < x.row + x.env.height)

/-- The paddock a team belongs to. -/
def padOf (b : Block) (k : Nat) : Option Nat := (List.range 64).find? (fun p => (padGet b p).has k)

/-- The teams of a rectangle, in ascending v then u. -/
def rectTeams (col row w h : Nat) : List Nat :=
  (List.range h).flatMap (fun v => (List.range w).map (fun u => (col + u) * 59 + (row + v)))

/-- The teams of a paddock. -/
def Pad.teams (x : Pad) : List Nat := rectTeams x.col x.row x.env.width x.env.height

/-- The cores of a paddock, by ascending core index i (R176). -/
def Pad.cores (x : Pad) : List Nat := x.teams.flatMap (fun k => (List.range 64).map (fun c => 64 * k + c))

/-- Core index i of a core in its paddock (R176). -/
def Pad.coreIndex (x : Pad) (ck : Nat) : Nat :=
  let k := ck / 64
  64 * ((keyRow k - x.row) * x.env.width + (keyCol k - x.col)) + ck % 64

/-! ### The die -/

/-- Thread of a key. -/
def thrGet (b : Block) (k : Nat) : Thread := tget Thread.parked b.die.thr k

/-- Replaces a thread. -/
def thrPut (b : Block) (k : Nat) (x : Thread) : Block :=
  { b with die := { b.die with thr := tput Thread.parked b.die.thr k x } }

/-- Changes a thread. -/
def thrMod (b : Block) (k : Nat) (f : Thread → Thread) : Block := thrPut b k (f (thrGet b k))

/-- Core of a key. -/
def coreGet (b : Block) (k : Nat) : CoreS := tget CoreS.init b.die.cores k

/-- Replaces a core. -/
def corePut (b : Block) (k : Nat) (x : CoreS) : Block :=
  { b with die := { b.die with cores := tput CoreS.init b.die.cores k x } }

/-- Changes a core. -/
def coreMod (b : Block) (k : Nat) (f : CoreS → CoreS) : Block := corePut b k (f (coreGet b k))

/-- Scalar register r of a thread; s0 reads as 0 (R149). -/
def Thread.rs (x : Thread) (r : BitVec 5) : Word := if r = 0 then 0 else tget 0 x.s r.toNat

/-- Writes a scalar register; a write to s0 is discarded (R149). -/
def Thread.ws (x : Thread) (r : BitVec 5) (v : Word) : Thread :=
  if r = 0 then x else { x with s := tput 0 x.s r.toNat v }

/-- Vector register r of a core. -/
def CoreS.rv (x : CoreS) (r : Nat) : Line := tget 0 x.v r

/-- Writes a vector register. -/
def CoreS.wv (x : CoreS) (r : Nat) (v : Line) : CoreS := { x with v := tput 0 x.v r v }

/-- Accumulator r of a core. -/
def CoreS.ra (x : CoreS) (r : Nat) : Acc := tget Acc.zero x.acc r

/-- Writes an accumulator. -/
def CoreS.wa (x : CoreS) (r : Nat) (v : Acc) : CoreS := { x with acc := tput Acc.zero x.acc r v }

/-- Pump of a team. -/
def pumpGet (b : Block) (k : Nat) : PumpS := tget PumpS.init b.die.pumps k

/-- Replaces a team's pump. -/
def pumpPut (b : Block) (k : Nat) (x : PumpS) : Block :=
  { b with die := { b.die with pumps := tput PumpS.init b.die.pumps k x } }

/-- A command leaves a pump's queue: what stays, and when nothing does (R432). -/
def pumpLeave (b : Block) (k : Nat) (q : List PumpCmd) : Block :=
  pumpPut b k { pumpGet b k with q := q, idleAt := if q = [] then b.time else (pumpGet b k).idleAt }

/-! ### Registers and output -/

/-- The stored fields of the register at an offset. -/
def regGet (b : Block) (off : Nat) : Word := tget 0 b.regs off

/-- Replaces the stored fields of a register. -/
def regPut (b : Block) (off : Nat) (v : Word) : Block := { b with regs := tput 0 b.regs off v }

/-- Field [lo + len - 1 : lo] of a stored register. -/
def regFld (b : Block) (off lo len : Nat) : Nat := fld (regGet b off) lo len

/-- Replaces a field of a stored register. -/
def regSet (b : Block) (off lo len v : Nat) : Block := regPut b off (setFld (regGet b off) lo len v)

/-- Counts in a field of a stored register, saturating. -/
def regCount (b : Block) (off lo len n : Nat) : Block :=
  regSet b off lo len (min (2 ^ len - 1) (regFld b off lo len + n))

/-- Puts something out. -/
def emit (b : Block) (o : Out) : Block := { b with out := b.out ++ [o] }

/-! ### Reports (R457, R460, R463) -/

/-- A source holds a report until a collector cycle samples it. -/
def raise (b : Block) (src cls : Nat) (d0 d1 d2 d3 : Word) (u : FUnit) : Block :=
  { b with reports := b.reports ++ [⟨src, cls, d0, d1, d2, d3, u, b.time, false, false, false, false⟩] }

/-- Class code of a corrected event (R459). -/
def corrected : Nat := 1
/-- Class code of a contained fault. -/
def contained : Nat := 2
/-- Class code of a fatal fault. -/
def fatal : Nat := 3

/-- D0 of a source with a place in the grid (R463). -/
def placeD0 (b : Block) (ck : Nat) : Word :=
  let k := ck / 64
  let base := at_ 0 (keyCol k) ||| at_ 7 (physRow b (keyCol k) (keyRow k)) ||| at_ 13 (ck % 64)
  match padOf b k with
  | some p => base ||| at_ 19 p ||| at_ 25 1
  | none => base

/-- D0 of every other source contained to a paddock (R463). -/
def padD0 (p : Nat) : Word := at_ 19 p ||| at_ 25 1

/-- The unit that a fault of a team charges: its paddock, or the team outside every paddock (R466). -/
def unitOf (b : Block) (k : Nat) : FUnit :=
  match padOf b k with
  | some p => .paddock p
  | none => .team k

/-! ### The cistern (R71 to R81) -/

/-- One byte of a core's cistern. -/
def cbyte (b : Block) (ck a : Nat) : Byte := tget 0 b.die.cist (40960 * ck + a)

/-- Writes bytes of a cistern upward from key `k`. -/
def putBytes (m : List Host.Cell) (k : Nat) : List Byte → List Host.Cell
  | [] => m
  | x :: r => putBytes (tput 0 m k x) (k + 1) r

/-- Line `l` of a core's cistern as it is stored. -/
def cline (b : Block) (ck l : Nat) : Line :=
  lineOf ((List.range 64).map (fun i => cbyte b ck (64 * l + i)))

/-- `n` bytes of a cistern as a little-endian number. -/
def cbytes (b : Block) (ck a n : Nat) : Nat := leNat ((List.range n).map (fun i => cbyte b ck (a + i)))

/-- Writes bytes into a cistern, without any check. -/
def cwrite (b : Block) (ck a : Nat) (l : List Byte) : Block :=
  { b with die := { b.die with cist := putBytes b.die.cist (40960 * ck + a) l } }

/-- The source ID of the tier that holds a line (R71, R80). -/
def tierSource (l : Nat) : Nat := 0x0C0 + l / 160

/-- Clears what the words `ws` of a core hold of errors. -/
def clearErr (b : Block) (ck : Nat) (ws : List Nat) : Block :=
  { b with die := { b.die with cistErr := ws.foldl (fun m w => tput 0 m (5120 * ck + w) 0) b.die.cistErr } }

/-- The error a cistern word holds. -/
def wordErr (b : Block) (ck w : Nat) : Nat := tget 0 b.die.cistErr (5120 * ck + w)

/-- Logs the corrected single-bit errors of the words `ws`, and writes them back corrected (R80). -/
def logSingles (b : Block) (ck : Nat) (ws : List Nat) : Block :=
  ws.foldl (fun b w =>
    if wordErr b ck w = 0 then b
    else
      let e := wordErr b ck w
      let b := raise b (tierSource (w / 8)) corrected (placeD0 b ck)
        (at_ 0 (w / 8) ||| at_ 10 (w % 8) ||| at_ 13 (if e ≤ 64 then e - 1 else 0)) 0 0 (unitOf b (ck / 64))
      clearErr b ck [w]) b

/-- Raises `CISTERN_UE` for a word, and marks its line for repair (R81). -/
def cisternUe (b : Block) (ck w : Nat) : Block :=
  let b := raise b (tierSource (w / 8)) contained (placeD0 b ck)
    (at_ 0 (w / 8) ||| at_ 10 (w % 8)) 0 0 (unitOf b (ck / 64))
  { b with die := { b.die with repair := b.die.repair ++ [640 * ck + w / 8] } }

/-- One read of a line through the cistern port: every word is checked (R78, R80, R81).  No line where
a word is uncorrectable. -/
def portRead (b : Block) (ck l : Nat) : Block × Option Line :=
  let ws := (List.range 8).map (fun i => 8 * l + i)
  match ws.find? (fun w => decide (64 < wordErr b ck w)) with
  | some w => (cisternUe b ck w, none)
  | none =>
    let b := logSingles b ck ws
    (b, some (cline b ck l))

/-- One whole-line write through the cistern port. -/
def portWrite (b : Block) (ck l : Nat) (v : Line) : Block :=
  clearErr (cwrite b ck (64 * l) (lineBytes v)) ck ((List.range 8).map (fun i => 8 * l + i))

/-- A store of bytes within one line (R79): whole words are written without a check; a part of a word
reads the line first.  `none` where an uncorrectable word stops the store. -/
def portStore (b : Block) (ck a : Nat) (data : List Byte) : Block × Bool :=
  let n := data.length
  let l := a / 64
  let ws := (List.range 8).map (fun i => 8 * l + i)
  let covers := fun w => decide (a ≤ 8 * w) && decide (8 * w + 8 ≤ a + n)
  let touches := fun w => decide (a < 8 * w + 8) && decide (8 * w < a + n)
  if ws.all (fun w => covers w || !touches w) then
    (clearErr (cwrite b ck a data) ck (ws.filter covers), true)
  else
    match ws.find? (fun w => !covers w && decide (64 < wordErr b ck w)) with
    | some w => (cisternUe b ck w, false)
    | none => (cwrite (logSingles b ck ws) ck a data, true)

/-! ### Traps (R177, R178) -/

/-- The trap causes (R178). -/
inductive Trap where
  | illegal
  | fetchRange
  | cisternRange
  | cisternProtect
  | accMode
  | meshOutOfPaddock
  | pumpRefused
  | semUnmapped
  | barrierRange
  | threadState
  | streamRange
  | software (code : Nat)
  deriving DecidableEq, Repr

/-- The cause code (R178). -/
def Trap.code : Trap → Nat
  | .illegal => 0x01 | .fetchRange => 0x02 | .cisternRange => 0x03 | .cisternProtect => 0x04
  | .accMode => 0x05 | .meshOutOfPaddock => 0x06 | .pumpRefused => 0x07 | .semUnmapped => 0x08
  | .barrierRange => 0x09 | .threadState => 0x0A | .streamRange => 0x0B | .software c => c

/-- May the trap be handled (R178)? -/
def Trap.handled : Trap → Bool
  | .fetchRange => false
  | .meshOutOfPaddock => false
  | _ => true

/-- The contained fault `CORE_TRAP`: core, thread, cause and PC (R177, R463). -/
def coreTrap (b : Block) (k cause : Nat) (pc : Word) : Block :=
  raise b 0x108 contained (placeD0 b (k / 4)) (at_ 19 (k % 4) ||| at_ 21 cause) (at_ 0 (fld pc 0 16)) 0
    (unitOf b (k / 256))

/-- Takes a trap at `pc`: handled, the thread goes on at `TVEC`; otherwise it is faulted and the
contained fault is raised (R177). -/
def takeTrap (b : Block) (k : Nat) (tr : Trap) (pc : Word) (val : Word) : Block :=
  let x := thrGet b k
  if tr.handled && decide (x.tvec ≠ 0) && decide (x.tcause = 0) then
    thrPut b k { x with st := .ready, pc := x.tvec, prev := pc, tcause := BitVec.ofNat 32 tr.code,
                        tpc := pc, tval := val }
  else coreTrap (thrPut b k { x with st := .faulted }) k tr.code pc

/-- A trap of the instruction at the thread's PC. -/
def trapNow (b : Block) (k : Nat) (tr : Trap) (val : Word) : Block :=
  takeTrap b k tr (thrGet b k).pc val

/-! ### Issue (R41 to R43, R49, R147, R148) -/

/-- Is a PC inside the code region, and aligned (R147)? -/
def pcOk (b : Block) (ck : Nat) (pc : Word) : Bool :=
  decide (pc.toNat % 8 = 0) && decide (pc.toNat < 64 * (coreGet b ck).cB)

/-- Do the paddock's cores issue: it is loaded and neither fenced nor restoring (R228, R232)? -/
def PadState.runs : PadState → Bool
  | .ready => true
  | .draining => true
  | .joining => true
  | _ => false

/-- Do the cores of a team issue? -/
def teamRuns (b : Block) (k : Nat) : Bool :=
  match padOf b k with
  | some p => (padGet b p).st.runs
  | none => false

/-- Has the thread's turn come: is none of the threads that the core considers before it, from the one after the thread that
issued last, ready (R41)? -/
def myTurn (b : Block) (k : Nat) : Bool :=
  let first := (coreGet b (k / 4)).last + 1
  (List.range ((k % 4 + 8 - first) % 4)).all (fun i => decide ((thrGet b (4 * (k / 4) + (first + i) % 4)).st ≠ .ready))

/-- Is the thread considered for issue: its state is ready or stalled, its paddock runs, and its turn has come (R41, R42)? -/
def considered (b : Block) (k : Nat) : Bool :=
  let x := thrGet b k
  (decide (x.st = .ready) || decide (x.st = .stalled)) && teamRuns b (k / 256) && myTurn b k

/-- May the thread's next instruction be tried: the thread is considered, and no vector register the instruction uses awaits a
response (R43, R168)? -/
def canIssue (b : Block) (k : Nat) (uses : List Nat) : Bool :=
  considered b k && uses.all (fun v => !(coreGet b (k / 4)).await.contains (k % 4, v))

/-- Moves a buffered line to the front of the instruction buffer, or puts a line read into it, dropping
the least recently used (R49). -/
def ibufTouch (l : List (Nat × Line)) (n : Nat) (v : Line) : List (Nat × Line) :=
  ((n, v) :: l.filter (fun e => e.1 ≠ n)).take 8

/-- The instruction word at the thread's PC, from the instruction buffer or through the port (R49).
No word where the line is uncorrectable (R81). -/
def fetchWord (b : Block) (ck : Nat) (pc : Word) : Block × Option Dword :=
  let n := pc.toNat / 64
  let pick := fun (v : Line) => BitVec.ofNat 64 (fld v (64 * (pc.toNat / 8 % 8)) 64)
  match (coreGet b ck).ibuf.find? (fun e => e.1 = n) with
  | some e => (coreMod b ck (fun c => { c with ibuf := ibufTouch c.ibuf n e.2 }), some (pick e.2))
  | none =>
    match portRead b ck n with
    | (b, some v) => (coreMod b ck (fun c => { c with ibuf := ibufTouch c.ibuf n v }), some (pick v))
    | (b, none) => (b, none)

/-- Is the value in the opcode map (R150)? -/
def opDefined (op : Nat) : Bool :=
  let lo := op % 16
  match op / 16 with
  | 0 => decide (lo ≤ 14) | 1 => decide (lo ≤ 14) | 2 => decide (lo ≤ 7) | 3 => decide (lo ≤ 4)
  | 4 => true | 5 => decide (lo ≤ 4) | 6 => decide (lo ≤ 1) | 7 => decide (lo ≤ 4)
  | 8 => decide (lo ≤ 3) | 9 => decide (lo = 0) | 10 => decide (lo ≤ 5) | 11 => decide (lo ≤ 5)
  | _ => false

/-- Marks a thread stalled: its next instruction cannot issue yet (R42). -/
def stall (b : Block) (k : Nat) : Block := thrMod b k (fun x => { x with st := .stalled })

/-- Notes the issue at the core: R41's round-robin pointer, and the issuing PC. -/
def noteIssue (b : Block) (k : Nat) : Block :=
  coreMod (thrMod b k (fun x => { x with prev := x.pc })) (k / 4) (fun c => { c with last := k % 4 })

/-- The issue of one instruction of a thread: the state and fetch checks every instruction shares, then
`legal` (R148), then its own effect `sem`.  A thread whose instruction awaits a register is stalled (R42); no effect where the
thread is not considered. -/
def issue (b : Block) (k : Nat) (uses : List Nat) (legal : Bool) (sem : Block → Block) : Block :=
  if canIssue b k uses then
    let pc := (thrGet b k).pc
    if pcOk b (k / 4) pc then
      match fetchWord b (k / 4) pc with
      | (b, none) => stall b k
      | (b, some w) =>
        let b := noteIssue b k
        if opDefined (fld w 56 8) && legal then sem b else trapNow b k .illegal 0
    else takeTrap b k .fetchRange (thrGet b k).prev pc
  else if considered b k then stall b k
  else b

/-- The instruction is done: the thread is ready at the next instruction, or `FETCH_RANGE` is charged
to this one where execution runs off the end of the region (R147). -/
def advance (b : Block) (k : Nat) : Block :=
  let pc := (thrGet b k).pc
  if pcOk b (k / 4) (pc + 8) then thrMod b k (fun x => { x with st := .ready, pc := pc + 8 })
  else takeTrap b k .fetchRange pc (pc + 8)

/-- Control goes to `target`; a target that cannot be fetched cancels the transfer (R147, R177). -/
def jump (b : Block) (k : Nat) (target : Word) (link : Thread → Thread) : Block :=
  let pc := (thrGet b k).pc
  if pcOk b (k / 4) target then thrMod b k (fun x => { link x with st := .ready, pc := target })
  else takeTrap b k .fetchRange pc target

/-- The instruction changes its thread by `f` and is done. -/
def finish (b : Block) (k : Nat) (f : Thread → Thread) : Block := advance (thrMod b k f) k

/-- The word at the thread's PC, as its core's instruction buffer or its cistern holds it. -/
def heldWord (b : Block) (ck : Nat) (pc : Word) : Dword :=
  let n := pc.toNat / 64
  let v := match (coreGet b ck).ibuf.find? (fun e => e.1 = n) with
    | some e => e.2
    | none => cline b ck n
  BitVec.ofNat 64 (fld v (64 * (pc.toNat / 8 % 8)) 64)

/-- Does the thread hold another instruction of the opcode map at its PC than a command names (R146, R150)? -/
def holdsOther (b : Block) (t : Thr) (i : Instr) : Bool :=
  let ck := coreKey t.core
  let pc := (thrGet b (thrKey t)).pc
  let w := heldWord b ck pc
  pcOk b ck pc && opDefined (fld w 56 8) && decide (encodeCore i ≠ some w)

/-- A figure in units of `u`: exact, or rounded the way that nothing in the manual states (log 24). -/
def inUnits (z : Int) (u : Nat) : Int := z / u + (decide (z % u ≠ 0) && Config.roundUp z u).toNat

/-! ### The outcome of a command -/

/-- A command changes the block and leaves the queue of waiting commands as it is. -/
def onBlk (f : Block → Block) (s : State) : Host.Outcome State Fault Refusal :=
  .next { s with blk := f s.blk }

/-- A core command: it has an effect only where the thread's next instruction word is the one it names (log 1). -/
def onCore (t : Thr) (i : Instr) (f : Block → Block) (s : State) : Host.Outcome State Fault Refusal :=
  onBlk (fun b => if holdsOther b t i then b else f b) s

end Sys2Proof.Machine
end

