-- ==== Sys2Proof/Machine/Regs.lean ====
section
/-! DEFINITION. The stored fields of BAR0: where they lie, which bits a write stores or clears, their reset
values and reset classes (R14 to R21 and the register tables of every chapter).  Fields that reflect live
state have no entry here; `bar0Read` computes them. -/

namespace Sys2Proof.Machine

/-- The stored bits of a family of registers: `count` registers from `off`, `stride` apart. -/
structure RegSpec where
  off : Nat
  count : Nat
  stride : Nat
  /-- RW and RWL bits. -/
  rw : Word
  /-- ST and RW1C bits. -/
  st : Word
  /-- Bits of reset class warm; every other stored bit is of class cold. -/
  warm : Word
  reset : Word
  deriving DecidableEq, Repr

/-- IDENT and READY (R511, R512).  Stepping codes and serial number come from fuses (log 19). -/
def specIdent : List RegSpec :=
  [⟨0x00000, 1, 4, 0, 0, 0, 0x3156444F⟩, ⟨0x00004, 1, 4, 0, 0, 0, 0x4138342D⟩,
   ⟨0x00008, 1, 4, 0, 0, 0, 0x01010101⟩, ⟨0x0000C, 1, 4, 0, 0, 0, 0x00000100⟩,
   ⟨0x00010, 1, 4, 0, 0, 0, 1⟩, ⟨0x00020, 1, 4, 0, 0, 0, 0x003C3B50⟩,
   ⟨0x00024, 1, 4, 0, 0, 0, 0x08200840⟩, ⟨0x00028, 1, 4, 0, 0, 0, 0x00004030⟩,
   ⟨0x0002C, 1, 4, 0, 0, 0, 0x0000001F⟩, ⟨0x00080, 1, 4, 0xFFFFFFFF, 0, 0xFFFFFFFF, 0⟩,
   ⟨0x10030, 1, 4, 0x7FF, 0, 0x7FF, 0⟩]

/-- HOSTIF, with the registers of a ring pair at its own copy (R249, R273, R307). -/
def specHostif : List RegSpec :=
  [⟨0x20000, 1, 4, 0x3FF, 0, 0x3FF, 0⟩, ⟨0x20004, 1, 4, 0x3, 0, 0, 0⟩, ⟨0x20008, 1, 4, 0x1F1F1F, 0, 0, 0⟩,
   ⟨0x2000C, 1, 4, 0x87FF87FF, 0, 0, 0⟩, ⟨0x20010, 3, 8, 0xFFFFF000, 0, 0, 0⟩,
   ⟨0x20014, 3, 8, 0xFFFFFFFF, 0, 0, 0⟩, ⟨0x20028, 1, 4, 0xFFFFFFC0, 0, 0, 0⟩,
   ⟨0x2002C, 1, 4, 0xFFFFFFFF, 0, 0, 0⟩, ⟨0x20030, 1, 4, 0, 0x4, 0x8, 0⟩,
   ⟨0x20100, 1, 4, 0x87FF1F01, 0, 0, 0⟩, ⟨0x20108, 1, 4, 0xFFFFF000, 0, 0, 0⟩,
   ⟨0x2010C, 1, 4, 0xFFFFFFFF, 0, 0, 0⟩, ⟨0x20110, 1, 4, 0xFFFFFFC0, 0, 0, 0⟩,
   ⟨0x20114, 1, 4, 0xFFFFFFFF, 0, 0, 0⟩, ⟨0x20118, 1, 4, 0, 0x1, 0xFFFF0000, 0⟩,
   ⟨0x20204, 1, 4, 0xFFFF, 0, 0, 1000⟩, ⟨0x2A000, 2048, 4, 0xFFFFFF, 0, 0, 0⟩,
   ⟨0x2C000, 16, 16, 0xFFFFF, 0, 0, 0⟩, ⟨0x2C004, 16, 16, 0xFFFF, 0, 0, 0⟩,
   ⟨0x2C008, 16, 16, 0x8001FFFF, 0, 0, 0⟩, ⟨0x2C100, 1, 4, 0, 0, 0x10000, 0⟩,
   ⟨0x2D000, 1, 4, 0x3FFF, 0, 0x3FFF, 0⟩, ⟨0x2D008, 3, 4, 0, 0, 0xFFFFFFFF, 0⟩,
   ⟨0x2D014, 1, 4, 0, 0, 0, 0⟩]

/-- CLOCK, GAIT and THERM (R207, R453 to R455). -/
def specClock : List RegSpec :=
  [⟨0x30000, 1, 4, 0, 0, 0xFFFF0000, 0⟩, ⟨0x30004, 1, 4, 0, 0, 0xFFFF, 0⟩, ⟨0x30008, 1, 4, 0x1FFF7, 0, 0, 0⟩,
   ⟨0x30400, 1, 4, 0xFFFF01, 0, 0, 0x1401⟩, ⟨0x40000, 1, 4, 0xFFFF, 0, 0, 27140⟩,
   ⟨0x40004, 1, 4, 0, 0, 0x10000, 0⟩, ⟨0x40308, 1, 4, 0xFFFF, 0, 0, 33000⟩,
   ⟨0x50000, 1, 4, 0x3FF, 0, 0x3FF, 0⟩, ⟨0x50010, 1, 4, 0, 0, 0x2, 0⟩]

/-- FAULT, SYNCDBG and MEM (R114, R211, R481). -/
def specFault : List RegSpec :=
  [⟨0x60000, 1, 4, 0x01FFFF07, 0, 0, 0x0007D005⟩, ⟨0x60004, 1, 4, 0, 0x1C, 0, 0⟩,
   ⟨0x60044, 1, 4, 0xFFFFFFFF, 0, 0xFFFFFFFF, 0⟩, ⟨0x60080, 1, 4, 0xFFFFFFFF, 0, 0xFFFFFFFF, 0⟩,
   ⟨0x600A0, 1, 4, 0xFFFF, 0, 0, 1000⟩, ⟨0x600A4, 1, 4, 0x1FFF, 0, 0x1FFF, 0⟩,
   ⟨0x600C0, 1, 4, 0x7FFF, 0, 0x7FFF, 0⟩, ⟨0x600C4, 1, 4, 0, 0, 0x4, 0⟩,
   ⟨0x600D0, 4, 4, 0xFFFFFFFF, 0, 0xFFFFFFFF, 0⟩, ⟨0x60100, 1, 4, 0x7F, 0, 0x7F, 0⟩,
   ⟨0x60204, 1, 4, 0x1FFFF, 0, 0x1FFFF, 0⟩,
   ⟨0x70000, 1, 4, 0x3FFFFF, 0, 0x3FFFFF, 0⟩, ⟨0x70004, 1, 4, 0x3FFFF, 0, 0x3FFFF, 0⟩,
   ⟨0x70014, 1, 4, 0, 0, 0x1, 0⟩, ⟨0x70030, 1, 4, 0x3FFF, 0, 0x3FFF, 0⟩,
   ⟨0x80000, 8, 4, 0, 0x4, 0xFFFF0000, 0⟩, ⟨0x80054, 1, 4, 0, 0, 0, 0⟩, ⟨0x80058, 1, 4, 0x3FFFF, 0, 0x3FFFF, 0⟩,
   ⟨0x80100, 1, 4, 0xFFFF, 0, 0, 64⟩, ⟨0x80200, 1, 4, 0xFFFFFFF8, 0, 0, 0⟩, ⟨0x80204, 1, 4, 0xFFFFFFFF, 0, 0, 0⟩,
   ⟨0x80208, 1, 4, 0x1FFFFF, 0, 0, 0⟩, ⟨0x8020C, 1, 4, 0xFFFF0001, 0, 0, 0x13880000⟩,
   ⟨0x80210, 1, 4, 0, 0x200000, 0, 0⟩]

/-- OEn and LINK (R339, R365, R366). -/
def specLink : List RegSpec :=
  [⟨0x100000, 8, 0x10000, 0x1, 0, 0, 0⟩, ⟨0x100004, 8, 0x10000, 0, 0x10, 0, 0⟩]
  ++ (List.range 8).map (fun n => ⟨0x100040 + 0x10000 * n, 36, 4, 0, 0x80000, 0, 0⟩)
  ++ [⟨0x100600, 8, 0x10000, 0x3FF, 0, 0x3FF, 0⟩, ⟨0x100700, 8, 0x10000, 0, 0, 0xFFFFFFFF, 0⟩,
   ⟨0x100704, 8, 0x10000, 0, 0, 0xFFFFFFFF, 0⟩, ⟨0x100800, 1, 4, 0, 0x2, 0, 0⟩,
   ⟨0x100900, 8, 0x10000, 0, 0x20000, 0, 0⟩, ⟨0x100904, 8, 0x10000, 0x1F, 0, 0x1F, 0⟩,
   ⟨0x200000, 32, 0x1000, 0xFFFFFF1F, 0, 0, 0x03E80A18⟩, ⟨0x200004, 32, 0x1000, 0, 0, 0, 0⟩]
  ++ (List.range 32).map (fun p => ⟨0x200020 + 0x1000 * p, 7, 4, 0, 0, 0xFFFFFFFF, 0⟩)

/-- FABRIC, PAIR, STORE and SECURE (R390, R419, R502, R503). -/
def specFabric : List RegSpec :=
  [⟨0x300000, 1, 4, 0x5, 0, 0, 0⟩, ⟨0x300008, 1, 4, 0x1FFF, 0, 0, 0⟩, ⟨0x300200, 1, 4, 0xFFF, 0, 0xFFF, 0⟩,
   ⟨0x300208, 1, 4, 0x7F, 0, 0x7F, 0⟩, ⟨0x300304, 4, 4, 0, 0, 0xFFFFFFFF, 0⟩, ⟨0x300400, 1, 4, 0x1FF, 0, 0x1FF, 0⟩,
   ⟨0x300408, 1, 4, 0x1FFFF, 0, 0x1FFFF, 0⟩,
   ⟨0x310000, 1, 4, 0x1F07, 0, 0, 0x1F00⟩, ⟨0x310004, 1, 4, 0x3FFF, 0, 0, 100⟩, ⟨0x310008, 1, 4, 0, 0x200, 0, 0⟩,
   ⟨0x310020, 1, 4, 0, 0, 0, 0⟩,
   ⟨0x320004, 1, 4, 0, 0, 0xFFFF0F00, 0⟩, ⟨0x320010, 1, 4, 0x3, 0, 0, 0⟩, ⟨0x320014, 1, 4, 0x3F, 0, 0x3F, 0⟩,
   ⟨0x320018, 1, 4, 0xFFFFFFFF, 0, 0, 0⟩,
   ⟨0x330000, 1, 4, 0, 0, 0, 0⟩, ⟨0x330004, 1, 4, 0, 0, 0, 0⟩, ⟨0x330010, 12, 4, 0, 0, 0, 0⟩,
   ⟨0x330040, 2, 4, 0, 0, 0xFFFFFFFF, 0⟩, ⟨0x330048, 1, 4, 0, 0, 0x3, 0⟩,
   ⟨0x330060, 2, 4, 0xFFFFFFFF, 0, 0xFFFFFFFF, 0⟩, ⟨0x330068, 1, 4, 0xFFFFFF, 0, 0xFFFFFF, 0⟩,
   ⟨0x330070, 1, 4, 0, 0, 0xFFFF0000, 0⟩]

/-- Every stored register of BAR0. -/
def specs : List RegSpec := specIdent ++ specHostif ++ specClock ++ specFault ++ specLink ++ specFabric

/-- Does a family hold an offset? -/
def RegSpec.holds (r : RegSpec) (off : Nat) : Bool :=
  decide (r.off ≤ off) && decide ((off - r.off) % r.stride = 0) && decide ((off - r.off) / r.stride < r.count)

/-- The stored bits of the register at an offset. -/
def specAt (off : Nat) : Option RegSpec := specs.find? (fun r => r.holds off)

/-- What a write leaves in the stored bits (R18): RW bits take the value written, ST bits written 1 clear. -/
def RegSpec.written (r : RegSpec) (old w : Word) : Word := (old &&& ~~~r.rw &&& ~~~(r.st &&& w)) ||| (w &&& r.rw)

/-- The reset values of BAR0, by offset (R20, R22). -/
def resetRegs : Tbl Word :=
  specs.foldl (fun m r => if r.reset = 0 then m else
    (List.range r.count).foldl (fun m i => tput 0 m (r.off + r.stride * i) r.reset) m) []

/-- The fields of class warm take their reset values, in the registers at offsets a predicate selects (R20,
R21). -/
def warmRegs (sel : Nat → Bool) (m : Tbl Word) : Tbl Word :=
  m.foldl (fun n e =>
    let off := e.1 % 2 ^ 22
    match specAt off with
    | some r => if sel off then tput 0 n e.1 ((e.2 &&& ~~~r.warm) ||| (r.reset &&& r.warm)) else n
    | none => n) m

/-- Stores a write to the register at an offset; the copy of a ring pair or of a word selects the key. -/
def regStore (b : Block) (off key : Nat) (w : Word) : Block :=
  match specAt off with
  | some r => regPut b key (r.written (regGet b key) w)
  | none => b

end Sys2Proof.Machine
end

