-- ==== Sys2Proof/Machine/Sha.lean ====
section
/-! DEFINITION. SHA-256, by which images, settings banks and firmware are bound (R213, R221, R485, R494,
R499).  The manual names the function; its steps are those of the published standard (PRESUMED, log 2). -/

namespace Sys2Proof.Machine

/-! ### Constants: fractions of the roots of the first primes -/

/-- The greatest number below `acc + 2 ^ n` from `acc` on whose `k`-th power is at most `v`. -/
def rootFrom (k v : Nat) : Nat → Nat → Nat
  | 0, acc => acc
  | n + 1, acc => rootFrom k v n (if (acc + 2 ^ n) ^ k ≤ v then acc + 2 ^ n else acc)

/-- The first 32 bits of the fraction of the `k`-th root of `p`. -/
def rootFraction (k p : Nat) : Word := BitVec.ofNat 32 (rootFrom k (p * 2 ^ (32 * k)) 38 0)

/-- The 64 primes up to 311: what no prime up to 17 divides but itself. -/
def shaPrimes : List Nat :=
  (List.range 312).filter (fun n => decide (2 ≤ n) && [2, 3, 5, 7, 11, 13, 17].all (fun d => decide (n = d) || decide (n % d ≠ 0)))

/-- What each of the 64 turns adds. -/
def turnKeys : List Word := shaPrimes.map (rootFraction 3)

/-- The chain before the first block. -/
def chainStart : List Word := (shaPrimes.take 8).map (rootFraction 2)

/-! ### One block -/

/-- The sum modulo 2 of a word turned right by each of the amounts. -/
def turned (x : Word) (by_ : List Nat) : Word := by_.foldl (fun y n => y ^^^ x.rotateRight n) 0

/-- The next 16 words of the message schedule: the oldest leaves, and a new one is made of four of them. -/
def slide (w : List Word) : List Word :=
  match w with
  | [] => []
  | old :: r =>
    let near := r.getD 0 0
    let far := r.getD 13 0
    r ++ [old + (turned near [7, 18] ^^^ near >>> 3) + r.getD 8 0 + (turned far [17, 19] ^^^ far >>> 10)]

/-- A turn of the eight working words with one summand. -/
def turn (add : Word) : List Word → List Word
  | [a, b, c, d, e, f, g, h] =>
    let low := h + turned e [6, 11, 25] + ((e &&& f) ||| (g &&& ~~~e)) + add
    let high := turned a [2, 13, 22] + ((a &&& b) ||| (c &&& (a ||| b)))
    [low + high, a, b, c, d + low, e, f, g]
  | l => l

/-- The turns of a block: the keys that are left, the 16 words of the schedule, the working words. -/
def turns : List Word → List Word → List Word → List Word
  | [], _, v => v
  | key :: r, w, v => turns r (slide w) (turn (key + w.headD 0) v)

/-- The `n` words of a byte list, each with its most significant byte first. -/
def bigWords (n : Nat) (l : List Byte) : List Word :=
  (List.range n).map (fun i => BitVec.ofNat 32 (leNat ((l.drop (4 * i)).take 4).reverse))

/-- A block passes into the chain. -/
def absorb (chain : List Word) (block : List Byte) : List Word :=
  (turns turnKeys (bigWords 16 block) chain).zipWith (fun x y => y + x) chain

/-! ### A message -/

/-- A message behind which stand the mark, the fill and its length in bits, so that it ends with a block. -/
def padded (m : List Byte) : List Byte :=
  m ++ 0x80 :: List.replicate ((119 - m.length % 64) % 64) 0 ++ (bytesOf 8 (8 * m.length)).reverse

/-- SHA-256 of a byte list, as 32 bytes. -/
def sha256 (m : List Byte) : List Byte :=
  let p := padded m
  let chain := (List.range (p.length / 64)).foldl (fun v i => absorb v ((p.drop (64 * i)).take 64)) chainStart
  chain.flatMap (fun w => (bytesOf 4 w.toNat).reverse)

/-- The hash as a number, byte 0 least significant, the form in which descriptors and tables hold it. -/
def sha256Nat (m : List Byte) : BitVec 256 := BitVec.ofNat 256 (leNat (sha256 m))

end Sys2Proof.Machine
end

