-- ==== Sys2Proof/Machine/Bank.lean ====
section
/-! DEFINITION. The settings banks as they lie in the settings store, and what the bank in force holds (R499). -/

namespace Sys2Proof.Machine

/-- `n` bytes from an address of a memory whose unlisted bytes are 0. -/
def cellBytes (m : List Host.Cell) (a n : Nat) : List Byte := (List.range n).map (fun i => tget 0 m (a + i))

/-- Base of a settings bank. -/
def bankBase (k : Nat) : Nat := 0x180000 * k

/-- Is a bank valid (R499)? -/
def bankValid (b : Block) (k : Nat) : Bool :=
  let h := cellBytes b.sec.store (bankBase k) 64
  let n := leAt h 0x10 4
  decide (leAt h 0 4 = 0x4254534F) && decide (0x2660 ≤ n) && decide (n ≤ 1572864)
    && decide (sha256 (cellBytes b.sec.store (bankBase k + 0x40) (n - 0x40)) = (h.drop 0x20).take 32)

/-- Generation of a bank. -/
def bankGen (b : Block) (k : Nat) : Nat := leNat (cellBytes b.sec.store (bankBase k + 8) 8)

/-- The bank in force (R499). -/
def bankInForce (b : Block) : Option Nat :=
  let a := bankValid b 0
  let c := bankValid b 1
  if a && c then some (if bankGen b 0 < bankGen b 1 then 1 else 0)
  else if a then some 0 else if c then some 1 else none

/-- Bytes of the bank in force from an offset; zeros where none is valid. -/
def bankBytes (b : Block) (o n : Nat) : List Byte :=
  match bankInForce b with
  | some k => cellBytes b.sec.store (bankBase k + o) n
  | none => List.replicate n 0

/-- The stored node ID (R374, R499). -/
def bankNode (b : Block) : Option Nat :=
  let v := leNat (bankBytes b 0x40 4)
  if v / 4096 % 2 = 1 then some (v % 4096) else none

/-- The heater code that the stored ring calibration holds for a loop of an engine: none where it holds none (R322, R499). -/
def bankCode (b : Block) (n i : Nat) : Option Nat :=
  if bankInForce b = none ∨ leNat (bankBytes b 0x250 4) / 2 ^ n % 2 = 0 then none
  else some (leNat (bankBytes b (0x260 + 2 * (576 * n + i)) 2))

end Sys2Proof.Machine
end

