-- ==== Sys2Proof/Machine/LinkOps.lean ====
section
/-! DEFINITION. Sending on a link: headers, flits, striping, line coding, credits, the replay buffer, packing of packets, control
messages and waking (R314, R341 to R352, R358, R387). -/

namespace Sys2Proof.Machine

/-! ### Links (R336, R380) -/

/-- Base of a port's LINK block (R365). -/
def linkBase (p : Nat) : Nat := 0x200000 + p * 0x1000

/-- The routed link on wavelength `w` of port `p`. -/
def linkNo (p w : Nat) : Nat := 32 + 16 * p + w

/-- The port of a link. -/
def portOf (l : Nat) : Nat := if l < 32 then l else (l - 32) / 16

/-- The wavelength of a routed link; 0 of a port's own. -/
def waveOf (l : Nat) : Nat := if l < 32 then 0 else (l - 32) % 16

/-- Link `l`. -/
def lpGet (b : Block) (l : Nat) : LPort := tget LPort.init b.lnk l

/-- Replaces a link. -/
def lpPut (b : Block) (l : Nat) (x : LPort) : Block := { b with lnk := tput LPort.init b.lnk l x }

/-- Changes a link. -/
def lpMod (b : Block) (l : Nat) (f : LPort → LPort) : Block := lpPut b l (f (lpGet b l))

/-- A link's width in its transmit direction (R344). -/
def LPort.width (x : LPort) : Nat := x.txMap.length

/-- Capacity of a direction of width `w` in 0.1 GB/s: 12.5 × w GB/s, of which a window of 2,047 flits passes the part that R350 gives
where the round trip is longer. -/
def capacity (w rtt : Nat) (coalesced : Bool) : Nat :=
  let trip := rtt * w * 100 + (if coalesced then 64 else 1) * 2048
  if 2047 * 2048 < trip then 125 * w * (2047 * 2048) / trip else 125 * w

/-- A link's widths have been set: the window is compared with the round trip, and both capacities are told (R350, R355). -/
def LPort.measure (x : LPort) : LPort :=
  let w := x.txMap.length
  { x with
    windowLimited := decide (2047 * 2048 < x.rtt * w * 100 + (if x.coalesced then 64 else 1) * 2048) && decide (0 < w)
    txCap := capacity w x.rtt x.coalesced, rxCap := capacity x.rxMap.length x.rtt x.coalesced }

/-! ### Symbols and striping (R314, R344) -/

/-- The field level of two bits, the first in time before the second (R314). -/
def fieldLevel (first second : Bool) : Int :=
  match first, second with
  | false, false => -3
  | false, true => -1
  | true, true => 1
  | true, false => 3

/-- What the receiver decides of a field level: the sign gives the first bit, the amplitude the second (R314). -/
def levelBits (v : Int) : Bool × Bool := (decide (0 < v), decide (-2 < v) && decide (v < 2))

/-- The levels of a bit stream, two bits a symbol. -/
def levelsOf : List Bool → List Int
  | a :: c :: r => fieldLevel a c :: levelsOf r
  | _ => []

/-- The bits of a byte, the least significant first (log 126). -/
def byteBits (x : Byte) : List Bool := (List.range 8).map (fun i => x.getLsbD i)

/-- The additive scrambler x^58 + x^39 + 1: its state, and the bits it scrambles (R344). -/
def scramble : BitVec 58 → List Bool → BitVec 58 × List Bool
  | s, [] => (s, [])
  | s, x :: r =>
    let k := s.getLsbD 57 ^^ s.getLsbD 38
    let w := scramble (s <<< 1 ||| BitVec.ofNat 58 k.toNat) r
    (w.1, (x ^^ k) :: w.2)

/-- A lane takes bytes: once they fill a codeword of 514 symbols of 10 bits, it leaves with its check symbols behind its markers,
scrambled, as field levels (R314, R344). -/
def code (c : Coder) (bytes : List Byte) : Coder × List Int :=
  let d := c.bits ++ bytes.flatMap byteBits
  if d.length < 5140 then ({ c with bits := d }, [])
  else
    let m := d.take 5140
    let check := Config.rsParity m
    let w := (Config.laneMark c.words).flatMap (fun e => [e.1, e.2]) ++ m ++ (List.range 300).map (fun i => check.getLsbD i)
    let r := scramble c.scr w
    ({ bits := d.drop 5140, scr := r.1, words := c.words + 1 }, levelsOf r.2)

/-- The bytes of a flit that the `i`-th position carries: its units of 16 B whose number, counted on from `first`, is `i` modulo the
width (R344). -/
def laneBytes (bytes : List Byte) (first w i : Nat) : List Byte :=
  ((List.range 16).filter (fun u => decide ((first + u) % w = i))).flatMap (fun u => (bytes.drop (16 * u)).take 16)

/-- The lanes that a link drives, with their place in the striping: those in use, and the spare that a position's data is sent on as
well (R328 step 4, R344). -/
def LPort.lanes (x : LPort) : List (Nat × Nat) :=
  x.txMap.zipIdx ++ (match x.twin with
    | some (old, s) => (x.txMap.zipIdx.filter (fun e => e.1 = old)).map (fun e => (s, e.2))
    | none => [])

/-- A flit's bytes pass through the lanes' coders: the link after it, and what each lane sends. -/
def stripe (x : LPort) (bytes : List Byte) : LPort × List (Nat × List Int) :=
  x.lanes.foldl (fun r e =>
    let c := code (tget Coder.init r.1.coders e.1) (laneBytes bytes (16 * x.flits) x.width e.2)
    ({ r.1 with coders := tput Coder.init r.1.coders e.1 c.1 }, r.2 ++ [(e.1, c.2)])) (x, [])

/-! ### Flits (R341 to R345) -/

/-- The header word of the next flit of a link, and the link after it (R342, R348, R351). -/
def mkHeader (x : LPort) (type seq : Nat) (vc : Bool) : Dword × LPort :=
  let ackV := x.rxAny && (!x.coalesced || x.dup || decide (64 ≤ x.owed))
  let cred := (if x.credVc then x.usedRsp else x.usedReq) % 1024
  let h := seq % 4096 + 4096 * vc.toNat + 2 ^ 13 * type + 2 ^ 15 * ackV.toNat
    + 2 ^ 16 * ((x.rxNext + 4095) % 4096) + 2 ^ 28 * x.credVc.toNat + 2 ^ 29 * cred
    + 2 ^ 40 * (x.txEpoch % 256)
  let x := if x.credVc then { x with owedRsp := 0 } else { x with owedReq := 0 }
  let x := if ackV then { x with owed := 0, dup := false } else x
  (BitVec.ofNat 64 h, { x with credVc := !x.credVc })

/-- 240 payload bytes: what is given, then zeros. -/
def pad240 (l : List Byte) : List Byte := (l ++ List.replicate 240 0).take 240

/-- A flit of a header and a payload (R341, R343). -/
def mkFlit (h : Dword) (payload : List Byte) (ctl : List (Byte × CtlMsg)) (echoes : List Byte) : Flit :=
  let p := pad240 payload
  ⟨h, p, crc64 (bytesOf 8 h.toNat ++ p), ctl, echoes⟩

/-- The bytes of a flit, in the order in which they are sent (R341). -/
def flitBytes (f : Flit) : List Byte := bytesOf 8 f.header.toNat ++ f.payload ++ bytesOf 8 f.crc.toNat

/-- Sends one flit: its header carries what is owed, and its units go out on the lanes (R341 to R344). -/
def sendFlit (b : Block) (l type seq : Nat) (vc : Bool) (payload : List Byte) (ms : List (Byte × CtlMsg)) (echoes : List Byte) : Block :=
  let r := mkHeader (lpGet b l) type seq vc
  let f := mkFlit r.1 payload ms echoes
  let w := stripe r.2 (flitBytes f)
  emit (lpPut b l { w.1 with flits := w.1.flits + 1, busyAt := if type = 0 then w.1.busyAt else b.time }) (.flit l f w.2)

/-- Sends an idle flit: what carries acknowledgements and credits when there is nothing else (R345). -/
def sendIdle (b : Block) (l : Nat) : Block := sendFlit b l 0 0 false [] [] []

/-- Sends a control flit (R352). -/
def sendCtl (b : Block) (l : Nat) (ms : List (Byte × CtlMsg)) (echoes : List Byte) : Block :=
  sendFlit b l 2 0 false (Config.ctlBytes ms echoes) ms echoes

/-- Sends one data flit of the given sequence, channel and payload. -/
def sendData (b : Block) (l seq : Nat) (vc : Bool) (payload : List Byte) : Block := sendFlit b l 1 seq vc payload [] []

/-! ### Data (R346, R351, R368, R387) -/

/-- May a new data flit of a channel go out: the link is up and awake, fewer than 2,047 are
unacknowledged, and a credit is held (R346, R351)? -/
def canSend (x : LPort) (vc : Bool) : Bool :=
  decide (x.st = 2) && decide (x.txSleep = 0) && decide (x.replay.length < 2047)
    && decide (0 < if vc then x.credRsp else x.credReq)

/-- Sends a new data flit: it takes a sequence and a credit and enters the replay buffer (R346, R351). -/
def sendNew (b : Block) (l : Nat) (vc : Bool) (payload : List Byte) : Block :=
  let x := lpGet b l
  let y := { x with txNext := (x.txNext + 1) % 4096, sent := min 2048 (x.sent + 1), replay := x.replay ++ [(x.txNext, vc, payload)] }
  let y := if vc then { y with credRsp := y.credRsp - 1 } else { y with credReq := y.credReq - 1 }
  sendData (lpPut b l y) l x.txNext vc payload

/-- Packs the waiting packets of a channel back to back into a room of bytes: what goes into the flit, and what still waits.  A packet
begins only where two bytes of its header have room (R368; log 84). -/
def packFlit (vc : Bool) : List Chunk → Nat → List Byte × List Chunk
  | [], _ => ([], [])
  | e :: r, n =>
    if e.vc ≠ vc then
      let w := packFlit vc r n
      (w.1, e :: w.2)
    else if n < 2 ∧ !e.begun then ([], e :: r)
    else if e.data.length ≤ n then
      let w := packFlit vc r (n - e.data.length)
      (e.data ++ w.1, w.2)
    else (e.data.take n, { e with begun := true, data := e.data.drop n } :: r)

/-- Sends of what waits at a link the flits that can go out, the channel of the oldest packet first; a channel without credit never
holds up the other (R351). -/
def drainN (l : Nat) : Nat → Block → Block
  | 0, b => b
  | n + 1, b =>
    match (lpGet b l).txq.find? (fun e => canSend (lpGet b l) e.vc) with
    | none => b
    | some e =>
      let w := packFlit e.vc (lpGet b l).txq 240
      drainN l n (sendNew (lpMod b l (fun x => { x with txq := w.2 })) l e.vc w.1)

/-- Sends what waits at a link and can go out. -/
def drain (b : Block) (l : Nat) : Block := drainN l (((lpGet b l).txq.map (fun e => e.data.length + 1)).sum) b

/-- Puts a packet into the list of those that wait: a reserved packet ahead of the unreserved packets of its channel that have not
begun (R387). -/
def queuePacket (l : List Chunk) (c : Chunk) : List Chunk :=
  let stays := fun (e : Chunk) => !(c.res && decide (e.vc = c.vc) && !e.res && !e.begun)
  l.takeWhile stays ++ [c] ++ l.dropWhile stays

/-- Puts a packet's bytes into a link's channel (R368). -/
def linkSend (b : Block) (l : Nat) (vc : Bool) (bytes : List Byte) : Block :=
  let c := Chunk.mk vc (decide (leAt bytes 4 2 / 2 ^ 11 % 2 = 1)) false bytes
  drain (lpMod b l (fun x => { x with txq := queuePacket x.txq c })) l

/-! ### Acknowledgement, credit and control messages (R348, R351, R352) -/

/-- Sends a flit that carries what is owed, where the direction is awake. -/
def answer (b : Block) (l : Nat) : Block :=
  let x := lpGet b l
  if x.st = 2 ∧ x.txSleep = 0 then sendIdle b l else b

/-- Carries the count of a channel: `CRED_VC` alternates, so that where the next flit names the other channel, the one after it does
(R342, R351). -/
def carry (b : Block) (l : Nat) (vc : Bool) : Block :=
  let b := if (lpGet b l).credVc = vc then b else answer b l
  answer b l

/-- Cuts a list of messages into flits of 8 (R352). -/
def eights {α : Type} : Nat → List α → List (List α)
  | 0, _ => []
  | n + 1, l => if l = [] then [] else l.take 8 :: eights n (l.drop 8)

/-- Sends what an awake direction has to say: the echoes it owes with the first of its messages, then the others. -/
def sendCtls (b : Block) (l : Nat) (ms : List (Byte × CtlMsg)) : Block :=
  let es := (lpGet b l).echoes
  let b := lpMod b l (fun x => { x with echoes := [] })
  let b := if es = [] ∧ ms = [] then b else sendCtl b l (ms.take 8) es
  (eights ms.length (ms.drop 8)).foldl (fun b m => sendCtl b l m []) b

/-- Sends a new control message, to be repeated until it is echoed (R352). -/
def sendMsg (b : Block) (l : Nat) (m : CtlMsg) : Block :=
  let x := lpGet b l
  let seq := x.ctlNext
  let b := lpPut b l { x with ctlNext := (seq + 1) % 256, ctl := x.ctl ++ [(seq, m, 0)] }
  if x.txSleep = 0 then sendCtl b l [(BitVec.ofNat 8 seq, m)] [] else b

/-! ### Waking (R358 to R360) -/

/-- A sleeping direction wakes: its burst goes out, then its wake notice, the messages and echoes that waited, and its data. -/
def wakeNow (b : Block) (l : Nat) : Block :=
  let x := lpGet b l
  if x.txSleep = 0 then b
  else
    let ms := x.ctl.map (fun e => (BitVec.ofNat 8 e.1, e.2.1))
    let b := emit (lpPut b l { x with txSleep := 0, sleepSeq := none }) (.wakeBurst l (decide (x.txSleep = 2)))
    drain (sendCtls (sendMsg b l .wake) l ms) l

end Sys2Proof.Machine
end

