-- ==== Sys2Proof/Machine/FabricOps.lean ====
section
/-! DEFINITION. Fabric packets, routing, and requests of the transport (R368, R377 to R382). -/

namespace Sys2Proof.Machine

/-- Changes the fabric layer. -/
def fabMod (b : Block) (f : FabS → FabS) : Block := { b with fab := f b.fab }

/-- The fields of a packet header beside its type (R368). -/
structure Hdr where
  dst : Nat
  src : Nat
  hops : Nat
  res : Bool
  flow : Nat
  retry : Nat
  txid : Nat
  deriving DecidableEq, Repr

/-- Bytes of a `HELLO` (R370). -/
def helloBytes (h : HelloPkt) : List Byte :=
  let node := match h.node with
    | some n => n.toNat + 0x8000
    | none => 0
  let wave := match h.routed with
    | some w => 2 * w.val + 32
    | none => 0
  bytesOf 8 h.serial.toNat ++ bytesOf 1 h.planeB.toNat ++ bytesOf 1 h.port ++ bytesOf 2 node
    ++ bytesOf 4 (h.master.toNat + wave)

/-- Payload bytes of a message: `HELLO`'s layout is the manual's, the others are free (log 16). -/
def msgPayload (m : FabMsg) : List Byte :=
  match m with
  | .hello h => helloBytes h
  | m => (Config.msgBytes m).take 1024

/-- A packet's bytes, with its `ECRC` (R368). -/
def packetBytes (h : Hdr) (m : FabMsg) : List Byte :=
  let pay := msgPayload m
  let head := bytesOf 2 (h.dst % 4096 + 4096 * m.type) ++ bytesOf 2 (h.src % 4096 + 4096 * (h.hops % 16))
    ++ bytesOf 2 (pay.length + 2 ^ 11 * h.res.toNat) ++ bytesOf 2 (h.flow % 8192 + 8192 * (h.retry % 8))
    ++ bytesOf 4 h.txid
  head ++ bytesOf 4 (crc32c (head ++ pay)).toNat ++ pay

/-- Fields of a packet's bytes (R368). -/
def RawPkt.dst (k : RawPkt) : Nat := leAt k.bytes 0 2 % 4096
/-- `TYPE`. -/
def RawPkt.type (k : RawPkt) : Nat := leAt k.bytes 0 2 / 4096
/-- `SRC`. -/
def RawPkt.src (k : RawPkt) : Nat := leAt k.bytes 2 2 % 4096
/-- `HOPS`. -/
def RawPkt.hops (k : RawPkt) : Nat := leAt k.bytes 2 2 / 4096
/-- `LEN`. -/
def RawPkt.len (k : RawPkt) : Nat := leAt k.bytes 4 2 % 2048
/-- `FLOW`. -/
def RawPkt.flow (k : RawPkt) : Nat := leAt k.bytes 6 2 % 8192
/-- `RETRY`. -/
def RawPkt.retry (k : RawPkt) : Nat := leAt k.bytes 6 2 / 8192
/-- `ECRC`. -/
def RawPkt.ecrc (k : RawPkt) : Nat := leAt k.bytes 12 4
/-- Does the `ECRC` hold? -/
def RawPkt.ok (k : RawPkt) : Bool :=
  decide ((crc32c (k.bytes.take 12 ++ k.bytes.drop 16)).toNat = k.ecrc)

/-- The fabric state of a link. -/
def fpGet (b : Block) (l : Nat) : FPort := tget FPort.init b.fab.ports l

/-- Replaces the fabric state of a link. -/
def fpPut (b : Block) (l : Nat) (x : FPort) : Block :=
  fabMod b (fun f => { f with ports := tput FPort.init f.ports l x })

/-- Does a link in a fabric state carry a packet type (R371)? -/
def carries (st ty : Nat) : Bool :=
  match st with
  | 0 => false
  | 1 => decide (ty = 1)
  | 2 => decide (1 ≤ ty) && decide (ty ≤ 9)
  | 3 => decide (ty = 1) || (decide (10 ≤ ty) && decide (ty ≤ 13))
  | 4 => decide (1 ≤ ty) && decide (ty ≤ 6)
  | _ => decide (ty = 1)

/-- The valid hops of a destination entry, in hop order (R377). -/
def entryHops (e : Word) : List Nat :=
  (List.range 4).filterMap (fun i => if bit e (6 * i + 5) then some (fld e (6 * i) 5) else none)

/-- The turn mask of an input on a channel; local injection, input 32, may turn to every port (R378). -/
def turnMask (b : Block) (vc : Bool) (input : Nat) : Word :=
  if input = 32 then BitVec.allOnes 32 else tget 0 b.fab.act.turn (64 * vc.toNat + input)

/-- Is a port in routed-wavelength mode: `OE_STAT.ROUTED` of its engine (R335, R339)? -/
def portRouted (b : Block) (p : Nat) : Bool := bit (regGet b (0x100004 + p / 4 * 0x10000)) 3

/-- The links of a port: its own, or its 16 routed links (R336, R380). -/
def portLinks (b : Block) (p : Nat) : List Nat := if portRouted b p then (List.range 16).map (linkNo p) else [p]

/-- The link that a destination takes on a port: the port's own, or the routed link that its entry names (R380). -/
def hopLink (b : Block) (p dst : Nat) : Option Nat :=
  if portRouted b p then
    let e := tget (0 : BitVec 5) b.fab.act.rlink (4096 * p + dst)
    if bit e 4 then some (linkNo p (fld e 0 4)) else none
  else some p

/-- The candidate links of a packet that came in by a port, 32 for local injection (R379, steps 1 and 2): in fabric state, of a width
above 0, and allowed by the turn mask. -/
def candidates (b : Block) (vc : Bool) (input dst : Nat) : List Nat :=
  (entryHops (tget 0 b.fab.act.dest dst)).filterMap (fun p =>
    match hopLink b p dst with
    | some l =>
      if decide ((fpGet b l).st = 2) && decide (0 < (lpGet b l).width) && bit (turnMask b vc input) p then some l else none
    | none => none)

/-- The next link of a packet (R379, step 4). -/
def nextHop (b : Block) (vc : Bool) (input src dst flow retry : Nat) : Option Nat :=
  let cand := candidates b vc input dst
  let h := (crc32c (bytesOf 2 src ++ bytesOf 2 dst ++ bytesOf 2 flow)).toNat + retry
  cand[h % cand.length]?

/-- Discards a packet without a route (R379, step 3). -/
def noRoute (b : Block) : Block := regCount b 0x300310 0 32 1

/-- Originates a packet of this module towards its destination, by the hop that its three bits of `RETRY` give (log 138); a module without an ID sends none (R368, R374). -/
def route (b : Block) (vc : Bool) (h : Hdr) (m : FabMsg) : Block :=
  if b.fab.node.isNone then b
  else
    match nextHop b vc 32 h.src h.dst h.flow (h.retry % 8) with
    | some l => linkSend (emit b (.packet l m)) l vc (packetBytes h m)
    | none => noRoute b

/-- Sends a packet to the neighbour on a link, where the link carries its type (R371). -/
def sendVc (b : Block) (l : Nat) (vc : Bool) (h : Hdr) (m : FabMsg) : Block :=
  if carries (fpGet b l).st m.type then linkSend (emit b (.packet l m)) l vc (packetBytes h m) else b

/-- Sends a packet of the request channel to the neighbour on a link. -/
def sendOn (b : Block) (l : Nat) (h : Hdr) (m : FabMsg) : Block := sendVc b l false h m

/-- The header of a packet that this module makes for a neighbour: `SRC` is the module's ID where it holds one (R368). -/
def nbrHdr (b : Block) : Hdr := ⟨0, b.fab.node.getD 0, 0, false, 0, 0, 0⟩

/-- `HOPS` of the oldest packet of a type that has arrived on a link and waits for its command (log 134). -/
def pktHops (b : Block) (l ty : Nat) : Nat :=
  match b.fab.rxq.find? (fun e => decide (e.1 = l) && decide (e.2.type = ty)) with
  | some e => e.2.hops
  | none => 0

/-- Flow `f`. -/
def flowGet (b : Block) (f : Nat) : Option Flow := tget none b.fab.flows f

/-- Replaces flow `f`. -/
def flowPut (b : Block) (f : Nat) (x : Option Flow) : Block :=
  fabMod b (fun s => { s with flows := tput none s.flows f x })

/-- Sends one asked request of a flow (R382). -/
def sendAsked (b : Block) (f : Nat) (x : Flow) (a : Asked) : Block :=
  route b false ⟨x.peer, b.fab.node.getD 0, 0, a.res && decide (a.retry = 0), f, a.retry, a.txid⟩ (.request a.msg)

/-- A new request on a flow: the next `TXID`, held back while 256 are unanswered (R382). -/
def ask (b : Block) (f : Nat) (m : TMsg) (res : Bool) : Block :=
  match flowGet b f with
  | none => b
  | some x =>
    if 256 ≤ x.asked.length then flowPut b f (some { x with held := x.held ++ [(m, res)] })
    else
      let a : Asked := ⟨x.next, m, 0, res, b.time, b.time⟩
      sendAsked (flowPut b f (some { x with next := (x.next + 1) % 2 ^ 32, asked := x.asked ++ [a] })) f x a

/-- A request to the peer of a split part, on flow 0 of its flows (R238, R389). -/
def askPeer (b : Block) (p : Nat) (m : TMsg) (res : Bool) : Block :=
  match (padGet b p).flows with
  | f :: _ => ask b f m res
  | [] => b

end Sys2Proof.Machine
end

