-- ==== Sys2Proof/Machine/HostOps.lean ====
section
/-! DEFINITION. Writing to host memory: interrupts, the event ring, completions, result records, what is
held back, and the batches of a redundant pair that entries can wait for (R264, R284 to R306, R403 to
R408). -/

namespace Sys2Proof.Machine

/-! ### Accessors -/

/-- Ring pair `q`. -/
def rpGet (b : Block) (q : Nat) : RPair := tget RPair.init b.host.pairs q

/-- Changes the host interface. -/
def hostMod (b : Block) (f : HostS → HostS) : Block := { b with host := f b.host }

/-- Replaces ring pair `q`. -/
def rpPut (b : Block) (q : Nat) (x : RPair) : Block :=
  hostMod b (fun h => { h with pairs := tput RPair.init h.pairs q x })

/-- Changes ring pair `q`. -/
def rpMod (b : Block) (q : Nat) (f : RPair → RPair) : Block := rpPut b q (f (rpGet b q))

/-- Session slot `n`. -/
def slotGet (b : Block) (n : Nat) : Slot := tget Slot.free b.sess.slots n

/-- Replaces session slot `n`. -/
def slotPut (b : Block) (n : Nat) (x : Slot) : Block :=
  { b with sess := { b.sess with slots := tput Slot.free b.sess.slots n x } }

/-- Changes session slot `n`. -/
def slotMod (b : Block) (n : Nat) (f : Slot → Slot) : Block := slotPut b n (f (slotGet b n))

/-- Changes the oldest turn of a slot. -/
def turnMod (b : Block) (n : Nat) (f : Turn → Turn) : Block :=
  slotMod b n (fun z => match z.turns with
    | t :: r => { z with turns := f t :: r }
    | [] => z)

/-- Changes the pair function. -/
def pairMod (b : Block) (f : PairS → PairS) : Block := { b with pair := f b.pair }

/-- Changes the collector. -/
def fltMod (b : Block) (f : FltS → FltS) : Block := { b with flt := f b.flt }

/-- Sets `DONE` in the records of the given numbers, where no paddock's action for them is still to end (R462). -/
def recsDone (b : Block) (ns : List Nat) : Block :=
  let open_ := b.pads.flatMap (fun e => e.2.recs)
  fltMod b (fun f => { f with log := f.log.map (fun r =>
    if ns.contains r.num && !open_.contains r.num && !f.windows.any (fun w => decide (w.num = r.num)) then { r with rflags := r.rflags ||| 16 } else r) })

/-- The reset of an engine (0 to 7) or of the host interface (8) has ended: the records that waited for it are done. -/
def waitsDone (b : Block) (k : Nat) : Block :=
  let l := (b.flt.waits.filter (fun e => e.1 = k)).map (·.2)
  fltMod (recsDone b l) (fun f => { f with waits := f.waits.filter (fun e => e.1 ≠ k) })

/-- Changes clocks and supply. -/
def pwrMod (b : Block) (f : PwrS → PwrS) : Block := { b with pwr := f b.pwr }

/-- The register of ring pair `q` at an offset (R307). -/
def ringReg (b : Block) (q off : Nat) : Word := regGet b (off + 2 ^ 22 * (q + 1))

/-- Is a unit ready (R425)? -/
def isReady (b : Block) (f u : Nat) : Bool := tget false b.pwr.ready (128 * f + u)

/-- Sizes of a pair's submission, completion and result rings (R279, R307). -/
def sqSize (b : Block) (q : Nat) : Nat := 2 ^ fld (ringReg b q 0x20008) 0 5
/-- Completion ring. -/
def cqSize (b : Block) (q : Nat) : Nat := 2 ^ fld (ringReg b q 0x20008) 8 5
/-- Result ring. -/
def rqSize (b : Block) (q : Nat) : Nat := 2 ^ fld (ringReg b q 0x20008) 16 5

/-- Has the pair a result ring (R307)? -/
def hasRq (b : Block) (q : Nat) : Bool := bit (ringReg b q 0x20004) 1

/-- How far count `x` lies beyond count `y`, modulo 2^32 (R279). -/
def ahead (x y : Nat) : Nat := (x + 2 ^ 32 - y % 2 ^ 32) % 2 ^ 32

/-- The `PHASE` of an entry at count `c` in a ring of the given size (R286). -/
def phase (c size : Nat) : Nat := 1 - c / size % 2

/-- HOSTIF writes nothing in the fatal state, in a host-interface reset and while it is fenced (R304, R466,
R470). -/
def hostStopped (b : Block) : Bool := b.flt.fatal || b.flt.hostDown || b.host.busy

/-- Can entries be written to a pair's rings? -/
def ringLive (b : Block) (q : Nat) : Bool := decide ((rpGet b q).st ≠ 0) && !hostStopped b

/-! ### Interrupts (R301) -/

/-- Vector `v`. -/
def vecGet (b : Block) (v : Nat) : Vec := tget Vec.init b.host.vecs v

/-- Replaces vector `v`. -/
def vecPut (b : Block) (v : Nat) (x : Vec) : Block := hostMod b (fun h => { h with vecs := tput Vec.init h.vecs v x })

/-- Sends a vector's message, or sets its pending bit where it is masked; the count returns to 0. -/
def fireVec (b : Block) (v : Nat) : Block :=
  let x := vecGet b v
  if x.masked then vecPut b v { x with count := 0, pend := true }
  else emit (vecPut b v { x with count := 0 }) (.msix v x.addr x.data)

/-- An entry counts towards vector `v` (R301). -/
def countVec (b : Block) (v : Nat) : Block :=
  let x := vecGet b v
  let b := vecPut b v { x with count := x.count + 1, since := if x.count = 0 then b.time else x.since }
  if fld (regGet b (0x2A000 + 4 * v)) 0 8 ≤ x.count + 1 then fireVec b v else b

/-! ### The event ring (R299, R300) -/

/-- Entries of the event ring. -/
def evtSize (b : Block) : Nat := 2 ^ regFld b 0x20100 8 5

/-- Has the event ring room? -/
def evtRoom (b : Block) : Bool := decide (ahead b.host.evtTail b.host.evtHead < evtSize b)

/-- Writes one event entry. -/
def writeEvent (b : Block) (code unit data detail : Nat) : Block :=
  let c := b.host.evtTail
  let e := BitVec.ofNat 256 (code % 2 ^ 16 + 2 ^ 16 * (unit % 2 ^ 16) + 2 ^ 32 * (data % 2 ^ 32)
    + 2 ^ 64 * (b.time % 2 ^ 64) + 2 ^ 128 * (detail % 2 ^ 96) + 2 ^ 255 * phase c (evtSize b))
  let b := emit (hostMod b (fun h => { h with evtTail := (c + 1) % 2 ^ 32 })) (.event (c % evtSize b) e)
  if bit (regGet b 0x20100) 31 then countVec b (regFld b 0x20100 16 11) else b

/-- Writes `EVENTS_LOST` before any other event, once space has returned (R300). -/
def lostEvent (b : Block) : Block :=
  let n := regFld b 0x20118 16 16
  if n ≠ 0 ∧ b.host.evtOn ∧ evtRoom b ∧ !hostStopped b then writeEvent (regSet b 0x20118 16 16 0) 9 0 n 0 else b

/-- An event: written, or discarded and counted where the ring is full (R300); discarded uncounted while
the ring is disabled. -/
def event (b : Block) (code unit data detail : Nat) : Block :=
  if !b.host.evtOn || hostStopped b then b
  else
    let b := lostEvent b
    if evtRoom b then writeEvent b code unit data detail
    else regCount (regSet b 0x20118 0 1 1) 0x20118 16 16 1

/-- A paddock number enters a state: `PADDOCK_STATE` (R230, R299). -/
def padState (b : Block) (p : Nat) (st : PadState) : Block :=
  event (padMod b p (fun x => { x with st := st })) 7 p st.code 0

/-! ### Slots as bytes (R242, R243) -/

/-- A turn entry. -/
def turnBytes (t : Turn) : List Byte :=
  bytesOf 8 t.acceptT ++ bytesOf 8 t.firstDl
    ++ bytesOf 4 (t.interval % 2 ^ 17 + 2 ^ 17 + 2 ^ 18 * t.running.toNat + 2 ^ 19 * t.suspended.toNat
        + 2 ^ 20 * t.tampered.toNat + 2 ^ 21 * (t.tries % 4))
    ++ bytesOf 4 (t.blocks.headD 0) ++ bytesOf 4 (t.prompt.length + 2 ^ 16 * t.done)
    ++ bytesOf 4 (t.gen + 2 ^ 16 * t.written)

/-- The entry at turn position `i` of a slot. -/
def turnAt (z : Slot) (i : Nat) : List Byte :=
  match z.turns[(i + 4 - z.oldest) % 4]? with
  | some t => turnBytes t
  | none => List.replicate 32 0

/-- The 256 bytes of slot `n`. -/
def slotBytes (n : Nat) (z : Slot) : List Byte :=
  if z.st = 0 then List.replicate 256 0
  else
    bytesOf 1 z.st ++ bytesOf 1 z.paddock ++ bytesOf 1 (z.draft + 128 * z.spec.toNat) ++ bytesOf 1 z.pace
      ++ bytesOf 2 z.ring ++ bytesOf 1 z.levels ++ bytesOf 1 (z.oldest + 4 * z.turns.length)
      ++ bytesOf 8 (Config.kvRoot n) ++ bytesOf 8 z.nextSeq ++ bytesOf 4 z.position
      ++ bytesOf 4 (z.lastToken + 2 ^ 31 * z.pending.toNat) ++ bytesOf 8 z.seed.toNat
      ++ bytesOf 4 z.temperature.toNat ++ bytesOf 4 z.topP.toNat ++ bytesOf 2 z.topK ++ bytesOf 2 0
      ++ (List.range 4).flatMap (fun i => match z.stops[i]? with
          | some (t, v) => bytesOf 4 (t + 2 ^ 31 * v.toNat)
          | none => bytesOf 4 0)
      ++ (List.range 16).flatMap (fun i => bytesOf 1 (z.widths.getD i 0)) ++ bytesOf 4 0
      ++ bytesOf 8 (Config.journal n z.nextSeq) ++ bytesOf 8 z.openedT ++ bytesOf 8 z.lastCloseT
      ++ bytesOf 2 z.lastStatus ++ bytesOf 14 0
      ++ (List.range 4).flatMap (fun i => turnAt z i)

/-! ### Completions (R284, R294) -/

/-- Bits of a completion. -/
def compBits (tag status dtype flags head obj detail : Nat) : BitVec 256 :=
  BitVec.ofNat 256 (tag % 2 ^ 32 + 2 ^ 32 * (status % 2 ^ 16) + 2 ^ 48 * (dtype % 2 ^ 8) + 2 ^ 56 * (flags % 2 ^ 8)
    + 2 ^ 64 * (head % 2 ^ 32) + 2 ^ 96 * (obj % 2 ^ 14) + 2 ^ 128 * (detail % 2 ^ 128))

/-- Accepted turns, carried by pair `q`, that have not closed: slot and turn. -/
def pairTurns (b : Block) (q : Nat) : List (Nat × Turn) :=
  b.sess.slots.flatMap (fun e => (e.2.turns.filter (fun t => t.pair = q)).map (fun t => (e.1, t)))

/-- Has a completion ring room (R306)? -/
def cqRoom (b : Block) (q : Nat) : Bool := decide (ahead (rpGet b q).cqTail (rpGet b q).cqHead < cqSize b q)

/-- Writes one completion entry; entries of its reservation that it does not use return, and a fetch that waited for space is
tried again (R284). -/
def writeComp (b : Block) (q tag status dtype flags obj detail : Nat) (noIrq : Bool) (resv : Nat) (last : Bool) : Block :=
  let x := rpGet b q
  let c := x.cqTail
  let left := max (x.reserved - resv) (pairTurns b q).length
  let x := { x with cqTail := (c + 1) % 2 ^ 32, reserved := left, opens := x.opens - last.toNat,
                    cqFull := x.cqFull && decide (x.reserved ≤ left + 1) }
  let b := emit (rpPut b q x) (.completion q (c % cqSize b q)
    (compBits tag status dtype (flags + 128 * phase c (cqSize b q)) x.sqHead obj detail))
  let v := ringReg b q 0x2000C
  if bit v 15 && !noIrq then countVec b (fld v 0 11) else b

/-- Puts a completion out: written; held with `REPLAYED` where the ring is disabled; behind what already
waits, or for want of room, after a reset (R304 to R306). -/
def putComp (b : Block) (q tag status dtype flags obj detail : Nat) (noIrq : Bool) (resv : Nat) (last : Bool) : Block :=
  if !ringLive b q then
    rpMod b q (fun x => { x with held := x.held ++ [.comp q tag status dtype (flags ||| 16) obj detail noIrq 0 last] })
  else if decide ((rpGet b q).replay = []) && cqRoom b q then
    writeComp b q tag status dtype flags obj detail noIrq resv last
  else rpMod b q (fun x => { x with replay := x.replay ++ [.comp q tag status dtype flags obj detail noIrq resv last] })

/-- Counts an entry written late while its promise holds (R254). -/
def noteLate (b : Block) (late : Bool) : Block :=
  if late then raise (regCount b 0x2D014 0 32 1) 0x122 corrected 0 0 0 0 .none else b

/-- Does a bound that the promise gives stand unmet (R253, R254)? -/
def isLate (b : Block) (t : Turn) (bound : Nat) : Bool := !t.suspended && !t.tampered && decide (bound < b.time)

/-- The no-sequence value of `LAST_SEQ` (R295). -/
def noSeq : Nat := 2 ^ 48 - 1

/-- `DETAIL` of a closing completion (R295). -/
def closeDetail (b : Block) (t : Turn) : Nat :=
  t.lastSeq.getD noSeq % 2 ^ 48 + 2 ^ 48 * (t.written % 2 ^ 16) + 2 ^ 64 * ((b.time - t.acceptT) % 2 ^ 48)

/-- Puts out the closing completion of a turn of slot `n`, and counts it where it is late (R254, R294, R295). -/
def closeOut (b : Block) (n : Nat) (t : Turn) (status flags : Nat) : Block :=
  let late := isLate b t t.cdl
  putComp (noteLate b late) t.pair t.tag status 3
    (flags ||| 1 ||| 2 * t.suspended.toNat ||| 4 * t.tampered.toNat ||| 8 * late.toNat) n (closeDetail b t) t.noIrq 1 false

/-- The oldest turn of a slot closes now: its completion is put out, its blocks return, and the slot's
state follows (R241, R247, R250, R294). -/
def closeNow (b : Block) (n status flags : Nat) : Block :=
  let z := slotGet b n
  match z.turns with
  | [] => b
  | t :: r =>
    let st := if z.st = 5 then 5 else if status = 0x0402 ∨ z.st = 4 then 4 else if r = [] then 1 else 2
    let r := match r with
      | u :: v => { u with running := true } :: v
      | [] => []
    let z := { z with turns := r, oldest := (z.oldest + 1) % 4, lastCloseT := b.time, lastStatus := status, st := st,
                      log := [] }
    closeOut (slotPut b n z) n t status flags

/-! ### Result records (R264, R296) -/

/-- Bits of a result record. -/
def recBits (seq slot token node flags time epoch tag : Nat) : BitVec 256 :=
  BitVec.ofNat 256 (seq % 2 ^ 48 + 2 ^ 48 * (slot % 2 ^ 14) + 2 ^ 64 * (token % 2 ^ 18) + 2 ^ 82 * (node % 2 ^ 12)
    + 2 ^ 96 * (flags % 2 ^ 32) + 2 ^ 128 * (time % 2 ^ 64) + 2 ^ 192 * (epoch % 2 ^ 32) + 2 ^ 224 * (tag % 2 ^ 32))

/-- `PAIR_CTRL.ENABLE` (R419). -/
def pairOn (b : Block) : Bool := bit (regGet b 0x310000) 0

/-- The emission gate: open on a module without a pair; in a pair, while the own request is asserted, and the partner's reads
deasserted or the line is broken (R33, R397, R399). -/
def gateOpen (b : Block) : Bool := !b.flt.fatal && (!pairOn b || b.pair.request && (b.pair.broken || !b.pair.reads))

/-- Does a module that is configured as part of a pair not hold a role yet: it withholds records (R33)? -/
def unsettled (b : Block) : Bool := pairOn b && decide (b.pair.role = 0)

/-- Can `k` records be written to the result ring of pair `q`: the reins gate is open, the ring is enabled, has room and waits for no
replayed or held completion of its pair (R33, R264, R304, R306)? -/
def ringRoom (b : Block) (q k : Nat) : Bool :=
  let x := rpGet b q
  gateOpen b && ringLive b q && decide (ahead x.rqTail x.rqHead + k ≤ rqSize b q) && decide (x.replay = [])

/-- Can `k` records of the oldest turn of slot `n` be written: its result ring has room, and the turn's `ACCEPTED` has been written
again after a reset (R306)? -/
def rqRoom (b : Block) (n k : Nat) : Bool :=
  let z := slotGet b n
  ringRoom b z.ring k
    && (match z.turns with
        | t :: _ => !t.replay
        | [] => true)

/-- Writes one record of a turn of slot `n` into the result ring of pair `q`, with its session's node, and counts it where it is late
(R254, R296). -/
def recOut (b : Block) (n q node : Nat) (t : Turn) (seq token flags : Nat) : Block :=
  let x := rpGet b q
  let c := x.rqTail
  let late := isLate b t t.bound
  let f := flags ||| 4 * t.tampered.toNat ||| 8 * t.suspended.toNat ||| 16 * late.toNat
  let epoch := if b.pair.role = 0 then 0 else b.pair.epoch
  let b := emit (rpPut b q { x with rqTail := (c + 1) % 2 ^ 32 }) (.record q (c % rqSize b q)
    (recBits seq n token node (f + 2 ^ 31 * phase c (rqSize b q)) b.time epoch t.tag))
  let b := noteLate b late
  let v := ringReg b q 0x2000C
  if bit v 31 && !t.noIrq then countVec b (fld v 16 11) else b

/-- The turn's next bound runs from a record's write (R251). -/
def Turn.wrote (t : Turn) (now : Nat) : Turn := { t with bound := now + 1000 * t.interval }

/-- Writes one record of the oldest turn of a slot. -/
def writeRec (b : Block) (n seq token flags : Nat) : Block :=
  let z := slotGet b n
  match z.turns with
  | [] => b
  | t :: _ =>
    recOut (turnMod (slotMod b n (fun z => { z with issued := seq + 1 })) n (fun t => t.wrote b.time)) n z.ring z.node t seq token flags

/-- Holds an entry back with the session's other output (R264). -/
def holdEntry (b : Block) (n : Nat) (e : Entry) : Block :=
  slotMod b n (fun z => { z with held := z.held ++ [e], heldAt := if z.held = [] then b.time else z.heldAt })

/-- Puts an entry out, in the order R31 gives the entries of a turn. -/
def place (b : Block) (e : Entry) : Block :=
  match e with
  | .comp q tag status dtype flags obj detail noIrq resv last =>
    putComp b q tag status dtype flags obj detail noIrq resv last
  | .record n seq token flags =>
    if decide ((slotGet b n).held = []) && rqRoom b n 1 then writeRec b n seq token flags else holdEntry b n e
  | .closing n status flags =>
    if (slotGet b n).held = [] then closeNow b n status flags
    else
      let off := ((slotGet b n).turns.head?).any (fun t => !ringLive b t.pair)
      holdEntry (turnMod b n (fun t => { t with ended := some status })) n
        (if off then .closing n status (flags ||| 16) else e)
  | .replayed n tag =>
    match (slotGet b n).turns.find? (fun t => t.tag = tag) with
    | some t => rpMod b t.pair (fun x => { x with replay := x.replay ++ [e] })
    | none => b

/-- Writes a session's held entries in order; records, as long as they can be written. -/
def flushList (n : Nat) : List Entry → Block → Block × List Entry
  | [], b => (b, [])
  | e :: r, b =>
    match e with
    | .record _ seq token flags => if rqRoom b n 1 then flushList n r (writeRec b n seq token flags) else (b, e :: r)
    | .closing _ status flags => flushList n r (closeNow b n status flags)
    | _ => flushList n r b

/-- How many records a session holds back. -/
def heldRecords (z : Slot) : Nat := (z.held.filter (fun e => match e with
  | .record _ _ _ _ => true
  | _ => false)).length

/-- Is there room for every record that a session holds back (R264)?  Where a host-interface reset or a failover has it held, its
entries go out each as soon as there is room (R306); likewise what a ring can never hold whole (log 121). -/
def heldRoom (b : Block) (n : Nat) : Bool :=
  let z := slotGet b n
  rqRoom b n (heldRecords z) || (rpGet b z.ring).unreserved || decide (rqSize b z.ring < heldRecords z)

/-- The result ring of a slot has room for all that it holds back: the held output is written, and the later bounds of its accepted
turns move by the time it was held (R251, R264). -/
def flushSlot (b : Block) (n : Nat) : Block :=
  let z := slotGet b n
  if z.held = [] ∨ !heldRoom b n then b
  else
    let d := b.time - z.heldAt
    let b := slotMod b n (fun z => { z with turns := z.turns.map (fun t =>
      { t with bound := t.bound + d, cdl := t.cdl + d, firstDl := if t.running then t.firstDl else t.firstDl + d }) })
    let r := flushList n z.held (slotMod b n (fun z => { z with heldAt := b.time }))
    slotMod r.1 n (fun z => { z with held := r.2 })

/-- The slots whose records go to pair `q`, or whose oldest turn it carries. -/
def slotsOn (b : Block) (q : Nat) : List Nat :=
  (b.sess.slots.filter (fun e => decide (e.2.ring = q) || e.2.turns.any (fun t => t.pair = q))).map (·.1)

/-- Writes what sessions hold back for pair `q`, as far as it can be written. -/
def flushRecords (b : Block) (q : Nat) : Block := (slotsOn b q).foldl flushSlot b

/-- Writes the replayed and held entries of a pair, as far as there is room; the closing slots of the pair's
turns are then reserved again (R305, R306). -/
def flushReplay (q : Nat) : List Entry → Block → Block × List Entry
  | [], b => (b, [])
  | e :: r, b =>
    if !cqRoom b q then (b, e :: r)
    else
      match e with
      | .comp q tag status dtype flags obj detail noIrq resv last =>
        flushReplay q r (writeComp b q tag status dtype flags obj detail noIrq resv last)
      | .replayed n tag =>
        match (slotGet b n).turns.find? (fun t => t.tag = tag) with
        | some t =>
          let z := slotGet b n
          let b := slotPut b n { z with turns := z.turns.map (fun t => if t.tag = tag then { t with replay := false } else t) }
          flushReplay q r (writeComp b q tag 0x0001 3 16 n (z.nextSeq % 2 ^ 48 + 2 ^ 48 * (t.written % 2 ^ 16)) t.noIrq 0 false)
        | none => flushReplay q r b
      | _ => flushReplay q r b

/-- Writes what is left of a handed-back turn, in the order of R31, as far as it can be written (R33). -/
def flushOrphan (o : Orphan) : List (Nat × Nat × Nat) → Turn → Block → Block × List Orphan
  | [], t, b => (closeOut b o.slot t o.status o.flags, [])
  | r :: rs, t, b =>
    if ringRoom b o.ring 1 then flushOrphan o rs (t.wrote b.time) (recOut b o.slot o.ring o.node t r.1 r.2.1 r.2.2)
    else (b, [{ o with recs := r :: rs, turn := t }])

/-- Writes what is left of every turn that has been handed back, as far as it can be written. -/
def flushOrphans (b : Block) : Block :=
  let r := b.pair.orphans.foldl (fun (r : Block × List Orphan) o =>
    let k := flushOrphan o o.recs o.turn r.1
    (k.1, r.2 ++ k.2)) (b, [])
  { r.1 with pair := { r.1.pair with orphans := r.2 } }

/-- Writes what waits at a pair. -/
def flushPair (b : Block) (q : Nat) : Block :=
  if ringLive b q then
    let r := flushReplay q (rpGet b q).replay b
    let b := rpMod r.1 q (fun x => { x with replay := r.2 })
    let b := flushOrphans (flushRecords b q)
    let x := rpGet b q
    let n := (pairTurns b q).length
    if x.unreserved && decide (x.replay = []) && b.sess.slots.all (fun e => decide (e.2.ring ≠ q) || decide (e.2.held = []))
        && b.pair.orphans.all (fun o => decide (o.ring ≠ q)) && decide (ahead x.cqTail x.cqHead + n ≤ cqSize b q) then
      rpPut b q { x with unreserved := false, reserved := n }
    else b
  else b

/-! ### The pair's batches (R403 to R408) -/

/-- Is the active protected (R408)? -/
def isProtected (b : Block) : Bool :=
  decide (b.pair.role = 1) && b.pair.partnerArmed && !b.pair.unprotected && !b.pair.broken

/-- Do completions and records wait for their batch (R407)? -/
def mirrored (b : Block) : Bool := isProtected b && !b.pair.fast

/-- Bytes of a mirror item (R403). -/
def itemBytes (m : MirrorItem) : List Byte :=
  bytesOf 1 m.kind ++ bytesOf 1 0 ++ bytesOf 2 m.slot ++ bytesOf 4 m.data.length ++ bytesOf 8 m.arg.toNat ++ m.data

/-- Sends one batch on the pair port (R404, R406). -/
def sendBatch (b : Block) (items : List MirrorItem) (fin : Bool) : Block :=
  let e := b.pair.sent + 1
  let bytes := items.flatMap itemBytes
  let c : CommitRec := ⟨BitVec.ofNat 64 e, BitVec.ofNat 64 b.time, items.length, bytes.length, fin, crc32c bytes⟩
  sendOn (pairMod b (fun x => { x with sent := e, ackAt := if x.acked < x.sent then x.ackAt else b.time })) (regFld b 0x310000 8 5) (nbrHdr b) (.mirror items c)

/-- The `SLOT` item of a slot (R403): its open turns, each at its own entry. -/
def slotItem (b : Block) (n : Nat) : MirrorItem :=
  let z := slotGet b n
  let ts := z.turns.filter (fun t => t.ended = none)
  ⟨1, n, 0, slotBytes n { z with turns := ts, oldest := (z.oldest + (z.turns.length - ts.length)) % 4 }⟩

/-- The `PADDOCK` item of a paddock (R403): its 64 B hold number, rectangle, hash, gait, mark. -/
def padItem (b : Block) (p : Nat) : MirrorItem :=
  let x := padGet b p
  ⟨5, 0xFFFF, BitVec.ofNat 64 p, padTo 64 (Config.padRecord
    [p, x.col, x.row, x.env.width, x.env.height, x.hash.toNat, x.gait, x.tampered.toNat])⟩

/-- The `COMPLETION` item of an entry; none for other entries (R403). -/
def compItem (e : Entry) : List MirrorItem :=
  match e with
  | .comp q tag status dtype flags obj detail _ _ _ =>
    [⟨7, 0xFFFF, BitVec.ofNat 64 q, bytesOf 32 (compBits tag status dtype flags 0 obj detail).toNat⟩]
  | _ => []

/-- How many of a list of entries close a turn of slot `n`. -/
def closings (n : Nat) (es : List Entry) : Nat :=
  (es.filter (fun e => match e with
    | .closing m _ _ => decide (m = n)
    | _ => false)).length

/-- The `COMPLETION` items of the closing completions of a batch (R403, R407): the turns that they close are the last ones
of their slot that have ended. -/
def closingItems (b : Block) (es : List Entry) : List MirrorItem :=
  es.zipIdx.flatMap (fun e =>
    match e.1 with
    | .closing n status _ =>
      let ts := (slotGet b n).turns
      match ts[(ts.filter (fun t => t.ended.isSome)).length - closings n es + closings n (es.take e.2)]? with
      | some t => [⟨7, 0xFFFF, BitVec.ofNat 64 t.pair, bytesOf 32
          (compBits t.tag status 3 (1 + 2 * t.suspended.toNat + 4 * t.tampered.toNat) 0 n (closeDetail b t)).toNat⟩]
      | none => []
    | _ => [])

/-- Puts out a mirrored entry, and counts the completions of each pair (R403). -/
def issue1 (b : Block) (e : Entry) : Block :=
  let q := match e with
    | .comp q _ _ _ _ _ _ _ _ _ => some q
    | .closing n _ _ => (slotGet b n).turns.head?.map (·.pair)
    | _ => none
  let b := match q with
    | some q => pairMod b (fun x => { x with issued := tput 0 x.issued q (tget 0 x.issued q + 1) })
    | none => b
  place b e

/-- An entry of a module that does not hold the reins: records and closings are withheld, other completions are put out (R33). -/
def withhold (b : Block) (e : Entry) : Block :=
  match e with
  | .comp _ _ _ _ _ _ _ _ _ _ => place b e
  | _ => pairMod b (fun x => { x with held := x.held ++ [(0, e)] })

/-- Emits entries together with the batch that carries them: at once on a module that is not paired, or where nothing of
them is mirrored; after the acknowledgement of the batch in mirrored mode; a deposed module discards what belongs to turns,
and a module without the reins withholds its records (R33, R406, R407, R415). -/
def post (b : Block) (items : List MirrorItem) (es : List Entry) : Block :=
  match b.pair.role with
  | 0 => if unsettled b then es.foldl withhold b else es.foldl place b
  | 1 =>
    let items := items ++ closingItems b es
    if items = [] then es.foldl place b
    else
      let hold := mirrored b
      let b := sendBatch b items false
      if hold then pairMod b (fun x => { x with held := x.held ++ es.map (fun e => (x.sent, e)) })
      else es.foldl issue1 b
  | 4 => es.foldl (fun b e => match e with
      | .comp _ _ _ _ _ _ _ _ _ _ => place b e
      | _ => b) b
  | _ => es.foldl withhold b

/-- Puts out everything that waits for batches up to epoch `e`. -/
def releaseHeld (b : Block) (e : Nat) : Block :=
  let l := b.pair.held
  let b := pairMod b (fun x => { x with held := l.filter (fun p => decide (e < p.1)) })
  ((l.filter (fun p => decide (p.1 ≤ e))).map (·.2)).foldl issue1 b

/-- Does a ring pair wait for a completion that the redundant pair still holds (R407)? -/
def pairHolds (b : Block) (q : Nat) : Bool :=
  b.pair.held.any (fun p => match p.2 with
    | .comp r _ _ _ _ _ _ _ _ _ => decide (r = q)
    | _ => false)

/-- Does a session wait for an entry that the pair still holds? -/
def heldByPair (b : Block) (n : Nat) : Bool :=
  b.pair.held.any (fun p => match p.2 with
    | .closing m _ _ => decide (m = n)
    | .record m _ _ _ => decide (m = n)
    | _ => false)

/-- The oldest turn of a slot is closed with a status (R30). -/
def endTurn (b : Block) (n status : Nat) : Block :=
  match (slotGet b n).turns with
  | [] => b
  | t :: _ =>
    if t.ended.isSome then b
    else
      let b := turnMod b n (fun t => { t with ended := some status })
      post b [slotItem b n] [.closing n status 0]

/-- Closes every accepted turn of a slot, the oldest first, with a status. -/
def endTurns (b : Block) (n status : Nat) : Block :=
  let k := ((slotGet b n).turns.filter (fun t => t.ended = none)).length
  if k = 0 then b
  else
    let b := slotMod b n (fun z => { z with turns := z.turns.map (fun t =>
      if t.ended = none then { t with ended := some status } else t) })
    post b [slotItem b n] (List.replicate k (.closing n status 0))

/-- A turn closes with `SESSION_FAULTED`: the session enters faulted, and its later turns close the same way
(R247). -/
def faultSession (b : Block) (n : Nat) : Block :=
  let b := endTurns b n 0x0402
  slotMod b n (fun z => { z with st := if z.st = 5 then 5 else 4 })

end Sys2Proof.Machine
end

