-- ==== Sys2Proof/Machine/Host.lean ====
section
/-! DEFINITION. The host interface: doorbells, fetching and the form of descriptors, `FENCE` and `NOP`,
interrupts, enabling, draining and resetting the rings (R278 to R307). -/

namespace Sys2Proof.Machine

/-! ### When HOSTIF acts (R428, R505, R507) -/

/-- BAR0 writes are applied: CXL is ready, and the module is neither in recovery nor in the fatal state. -/
def writeServed (b : Block) : Bool := isReady b 1 0 && !b.flt.fatal && !b.pwr.recovery

/-- Writes to action fields act: Swizen is ready as well (R507). -/
def actServed (b : Block) : Bool := writeServed b && isReady b 0 0

/-- Rings are processed (R428). -/
def ringsRun (b : Block) : Bool := isReady b 1 0 && isReady b 0 0 && !hostStopped b

/-! ### Descriptors (R288 to R293) -/

/-- `n` bytes of a descriptor at an offset, as a number. -/
def dfield (d : Line) (off n : Nat) : Nat := fld d (8 * off) (8 * n)

/-- `TYPE`. -/
def dType (d : Line) : Nat := dfield d 0 1

/-- Returns a cookie: `TAG`, `TYPE` and `NO_IRQ` of a descriptor. -/
def dCookie (d : Line) : Nat := dfield d 4 4 + 2 ^ 32 * dType d + 2 ^ 40 * (bit d 8).toNat

/-- A completion for a cookie. -/
def cookieComp (q cookie status obj detail resv : Nat) (last : Bool) : Entry :=
  .comp q (cookie % 2 ^ 32) status (cookie / 2 ^ 32 % 256) 0 obj detail (decide (cookie / 2 ^ 40 = 1)) resv last

/-- Do only the given bytes (offset, bits) of a descriptor beyond `TYPE`, `NO_IRQ` and `TAG` hold a bit? -/
def onlyFields (d : Line) (fs : List (Nat × Nat)) : Bool :=
  let m := 2 ^ 9 - 1 + (2 ^ 32 - 1) * 2 ^ 32
  let keep : Line := fs.foldl (fun k f => k ||| BitVec.ofNat 512 ((2 ^ f.2 - 1) * 2 ^ (8 * f.1))) (BitVec.ofNat 512 m)
  decide (d &&& ~~~keep = 0)

/-- The form of a `TURN` (R289, R291). -/
def turnForm (d : Line) : Bool :=
  let p := dfield d 0x0A 2
  if bit d 9 then
    decide (p ≤ 12) && onlyFields (setBit d 9 false)
        ([(0x08, 14), (0x0A, 16), (0x0C, 16)] ++ (List.range p).map (fun i => (0x10 + 4 * i, 18)))
  else onlyFields d [(0x08, 14), (0x0A, 16), (0x0C, 16), (0x10, 64)] && decide (dfield d 0x10 8 % 4 = 0)

/-- The form of a descriptor (R289 to R293). -/
def formOk (b : Block) (d : Line) : Bool :=
  match dType d with
  | 0x01 =>
    onlyFields d [(0x08, 6), (0x09, 8), (0x0A, 4), (0x0B, 8), (0x0C, 10), (0x0E, 16), (0x10, 64), (0x18, 64),
        (0x20, 128), (0x30, 128)]
      && (List.range 4).all (fun i => decide (fld d (8 * (0x20 + 4 * i) + 18) 13 = 0))
      && decide (fld d (8 * 0x09 + 6) 1 = 0) && decide (dfield d 0x0B 1 ≤ 16)
      && decide ((rpGet b (dfield d 0x0C 2)).st ≠ 0) && hasRq b (dfield d 0x0C 2)
  | 0x02 => onlyFields d [(0x08, 14)]
  | 0x03 => turnForm d
  | 0x10 =>
    onlyFields d [(0x08, 1), (0x09, 1), (0x0A, 10), (0x10, 64), (0x18, 32)]
      && (if dfield d 0x09 1 = 0 then decide (dfield d 0x10 8 % 64 = 0) && decide (dfield d 0x18 4 = 0)
          else decide (dfield d 0x10 8 % 8 = 0))
  | 0x11 =>
    onlyFields d [(0x08, 10), (0x0A, 1), (0x0B, 8), (0x0C, 8), (0x0D, 2), (0x0E, 12)]
      && (if dfield d 0x0A 1 = 1 then decide (dfield d 0x0B 2 = 0)
          else decide (dfield d 0x0B 1 ≤ 79) && decide (dfield d 0x0C 1 ≤ 58))
  | 0x12 => onlyFields d [(0x08, 6), (0x09, 1)]
  | 0x13 => onlyFields d [(0x08, 6), (0x09, 2)]
  | 0x20 => onlyFields d [(0x08, 5), (0x09, 8)] && decide (dfield d 0x09 1 ≤ 17)
  | 0x21 =>
    onlyFields d [(0x08, 1), (0x09, 8), (0x0A, 8), (0x0B, 8), (0x0C, 8), (0x10, 32)]
      && (if dfield d 0x08 1 = 0 then
            decide (1 ≤ dfield d 0x0B 1) && decide (dfield d 0x0B 1 ≤ 80) && decide (1 ≤ dfield d 0x0C 1)
              && decide (dfield d 0x0C 1 ≤ 59) && decide (dfield d 0x10 4 = 0)
          else decide (dfield d 0x0B 2 = 0) && decide (dfield d 0x10 4 ≠ 0))
  | 0x30 => onlyFields d [(0x08, 1)]
  | 0x31 => onlyFields d []
  | _ => false

/-- `OBJ` of a refused descriptor (R294): the slot, paddock or stage that it names. -/
def dObj (d : Line) : Nat :=
  match dType d with
  | 0x02 => fld d 64 14
  | 0x03 => fld d 64 14
  | 0x12 => fld d 64 6
  | 0x13 => fld d 64 6
  | 0x10 => if dfield d 0x08 1 = 1 then fld d 80 10 else 0
  | _ => 0

/-- Completion entries reserved for a descriptor (R284). -/
def dNeed (d : Line) : Nat := if dType d = 0x03 then 2 else 1

/-- A descriptor completes at its check, with a status, object and detail. -/
def finishDesc (b : Block) (q : Nat) (d : Line) (status obj detail : Nat) : Block :=
  post b [] [cookieComp q (dCookie d) status obj detail (dNeed d) false]

/-- Refuses the malformed descriptors at the head of a pair's list, as far as checks may begin (R285, R289,
R293). -/
def settleGo (q : Nat) : Nat → Block → Block
  | 0, b => b
  | k + 1, b =>
    let x := rpGet b q
    if x.fence.isSome || x.reading.isSome then b
    else
      match x.fetched with
      | [] => b
      | d :: r =>
        if formOk b d then b
        else settleGo q k (finishDesc (rpPut b q { x with fetched := r, order := x.order.drop 1 }) q d 0x0105 (dObj d) 0)

/-- Refuses the malformed descriptors at the head of pair `q`'s list. -/
def settle (b : Block) (q : Nat) : Block := settleGo q (rpGet b q).fetched.length b

/-- The descriptors of a pair that wait for their check, each with its place in the order of fetching. -/
def RPair.queue (x : RPair) : List (Line × Nat) := x.fetched.zip x.order

/-- Is a descriptor one of those that the loader checks one at a time, in the order of fetching (R224)? -/
def isLoad (d : Line) : Bool := decide (dType d = 0x10) || decide (dType d = 0x11)

/-- Has every load descriptor that was fetched before the head of pair `q`'s list been checked (R224)? -/
def loadsFirst (b : Block) (q : Nat) : Bool :=
  let k := (rpGet b q).order.headD 0
  b.host.pairs.all (fun e => e.2.queue.all (fun d => !isLoad d.1 || decide (k ≤ d.2)))

/-- The descriptor of a type at the head of a pair's list, where its check may begin (R224, R285, R293); its form is checked with
it. -/
def nextDesc (b : Block) (q ty : Nat) : Option Line :=
  let x := rpGet b q
  if x.fence.isSome || x.reading.isSome || b.flt.fatal then none
  else
    match x.fetched with
    | d :: _ => if dType d = ty && (!isLoad d || loadsFirst b q) then some d else none
    | [] => none

/-- Checks the descriptor of a type at the head of pair `q`: its form first (R289), then `check` gives its effect; malformed
descriptors behind it are refused. -/
def checkDesc (b : Block) (q ty : Nat) (check : Block → Line → Block) : Block :=
  match nextDesc b q ty with
  | none => b
  | some d =>
    let c := rpMod b q (fun x => { x with fetched := x.fetched.drop 1, order := x.order.drop 1 })
    settle (if formOk b d then check c d else finishDesc c q d 0x0105 (dObj d) 0) q

/-- The work of a descriptor whose check has passed goes on (R285, R293). -/
def openDesc (b : Block) (q : Nat) : Block := rpMod b q (fun x => { x with opens := x.opens + 1 })

/-- Fetch is possible at a pair (R283, R284, R303, R306). -/
def canFetch (b : Block) (q : Nat) : Bool :=
  let x := rpGet b q
  decide (x.st = 1) && decide (x.sqHead ≠ x.sqTail) && !x.cqFull && decide (x.replay = []) && !x.unreserved

/-- The pair that round-robin fetches from next, with the descriptors taken at its visit (R284). -/
def fetchTurn (b : Block) : Option (Nat × Nat) :=
  if canFetch b b.host.visit && decide (b.host.taken < 16) then some (b.host.visit, b.host.taken)
  else
    match (List.range 1024).find? (fun i => canFetch b ((b.host.visit + 1 + i) % 1024)) with
    | some i => some ((b.host.visit + 1 + i) % 1024, 0)
    | none => none

/-- Fetches the next descriptor of pair `q`, whose 64 bytes are `d`, after its completion entries have been
reserved (R284, R285). -/
def fetchDesc (q : Nat) (d : Line) (b : Block) : Block :=
  match fetchTurn b with
  | none => b
  | some (v, k) =>
    if v = q ∧ ringsRun b then
      let x := rpGet b q
      if ahead x.cqTail x.cqHead + x.reserved + dNeed d ≤ cqSize b q then
        let b := rpPut b q { x with sqHead := (x.sqHead + 1) % 2 ^ 32, reserved := x.reserved + dNeed d,
                                    fetched := x.fetched ++ [d], order := x.order ++ [b.host.fetches] }
        settle (hostMod b (fun h => { h with visit := q, taken := k + 1, fetches := h.fetches + 1 })) q
      else rpPut b q { x with cqFull := true }
    else b

/-! ### Doorbells (R280 to R283) -/

/-- State of a doorbell line. -/
def doorGet (b : Block) : Door → Nat
  | .pair q => (rpGet b q.val).door
  | .events => b.host.evtDoor

/-- Sets the state of a doorbell line. -/
def doorPut (b : Block) (d : Door) (s : Nat) : Block :=
  match d with
  | .pair q => rpMod b q.val (fun x => { x with door := s })
  | .events => hostMod b (fun h => { h with evtDoor := s })

/-- Issues a read of a doorbell line into the Shared state. -/
def readDoor (b : Block) (d : Door) : Block := emit (doorPut b d 2) (.readShared d)

/-- A snoop takes a doorbell line away: it is answered, and the line re-read; while a re-read is
outstanding, one further re-read follows it (R281). -/
def doorSnoop (d : Door) (b : Block) : Block :=
  if b.flt.fatal then b
  else
    match doorGet b d with
    | 0 => b
    | 1 => readDoor (emit b (.snoopAck d)) d
    | _ => doorPut (emit b (.snoopAck d)) d 3

/-- A doorbell value of a pair that fails R283: `code` 1, 2 or 3. -/
def ringError (b : Block) (q code : Nat) : Block :=
  let b := regSet b (0x20030 + 2 ^ 22 * (q + 1)) 2 1 1
  let b := rpMod b q (fun x => { x with st := if x.st = 1 ∨ x.st = 2 then 3 else x.st })
  event b 5 q code 0

/-- The values of a pair's doorbell line are checked and taken over (R281, R283). -/
def doorValues (b : Block) (q tail cq rq : Nat) : Block :=
  let x := rpGet b q
  if x.st = 0 then b
  else
    let t := decide (ahead tail x.sqHead ≤ sqSize b q)
    let c := decide (ahead cq x.cqHead ≤ ahead x.cqTail x.cqHead)
    let r := decide (ahead rq x.rqHead ≤ ahead x.rqTail x.rqHead)
    let b := rpPut b q { x with sqTail := if t then tail else x.sqTail, cqHead := if c then cq else x.cqHead,
                                rqHead := if r then rq else x.rqHead,
                                cqFull := if c && decide (cq ≠ x.cqHead) then false else x.cqFull }
    let b := if t then b else ringError b q 1
    let b := if c then b else ringError b q 2
    let b := if r then b else ringError b q 3
    flushPair b q

/-- A re-read of a doorbell line returns (R281). -/
def doorReturn (d : Door) (tail cq rq : Word) (b : Block) : Block :=
  if doorGet b d < 2 ∨ hostStopped b then b
  else
    let b := if doorGet b d = 2 then doorPut b d 1 else readDoor b d
    match d with
    | .pair q => doorValues b q.val tail.toNat cq.toNat rq.toNat
    | .events =>
      let h := b.host
      if ahead tail.toNat h.evtHead ≤ ahead h.evtTail h.evtHead then
        lostEvent (hostMod b (fun h => { h with evtHead := tail.toNat }))
      else b

/-- The doorbell lines that are held. -/
def heldDoors (b : Block) : List Door :=
  (List.range 1024).filterMap (fun q =>
    if (rpGet b q).door = 1 then some (.pair (Fin.ofNat 1024 q)) else none)
  ++ (if b.host.evtDoor = 1 then [.events] else [])

/-- The poll interval expires: every held line is re-read (R282). -/
def doorPoll (b : Block) : Block :=
  let us := regFld b 0x20204 0 16
  if us = 0 ∨ hostStopped b ∨ b.time < b.host.polled + 1000 * us then b
  else (heldDoors b).foldl readDoor (hostMod b (fun h => { h with polled := b.time }))

/-! ### `FENCE` and `NOP` (R293) -/

/-- `FENCE` holds the pair's later descriptors back. -/
def fenceCheck (q : Nat) (b : Block) : Block :=
  checkDesc b q 0x30 (fun b d => rpMod b q (fun x => { x with fence := some (dCookie d, dfield d 0x08 1) }))

/-- Has every completion that a `FENCE` of pair `q` waits for been written? -/
def fenceClear (b : Block) (q scope : Nat) : Bool :=
  let x := rpGet b q
  decide (x.opens = 0) && decide (x.held = []) && decide (x.replay = []) && !pairHolds b q
    && (decide (scope = 0) || decide (pairTurns b q = []))

/-- The awaited completions are written: the `FENCE` completes. -/
def fenceDone (q : Nat) (b : Block) : Block :=
  match (rpGet b q).fence with
  | none => b
  | some (k, scope) =>
    if fenceClear b q scope then
      settle (post (rpMod b q (fun x => { x with fence := none })) [] [cookieComp q k 0 0 0 1 false]) q
    else b

/-- `NOP` completes `OK`. -/
def nopCheck (q : Nat) (b : Block) : Block := checkDesc b q 0x31 (fun b d => finishDesc b q d 0 0 0)

/-! ### Interrupts (R301) -/

/-- The moderation time of a vector expires, `TIME` × 100 ns after its oldest pending entry was written. -/
def modExpire (v : Nat) (b : Block) : Block :=
  let t := regFld b (0x2A000 + 4 * v) 8 16
  if 0 < (vecGet b v).count ∧ t ≠ 0 ∧ (vecGet b v).since + 100 * t ≤ b.time ∧ !hostStopped b then fireVec b v else b

/-- A vector that is not masked and pends sends its message, once HOSTIF sends messages. -/
def sendPend (b : Block) (v : Nat) : Block :=
  let x := vecGet b v
  if x.pend && !x.masked && !hostStopped b then emit (vecPut b v { x with pend := false }) (.msix v x.addr x.data) else b

/-- A vector is unmasked: a pending message is sent. -/
def unmask (v : Nat) (b : Block) : Block := sendPend (vecPut b v { vecGet b v with masked := false }) v

/-- Writes a word of the MSI-X table: message address, message data, or vector control with the mask bit (R277; log 18). -/
def tableWrite (off : Nat) (w : Word) (b : Block) : Block :=
  let v := off / 16
  let x := vecGet b v
  if 2048 ≤ v then b
  else
    match off % 16 with
    | 0 => vecPut b v { x with addr := setFld x.addr 0 32 (w.toNat / 4 * 4) }
    | 4 => vecPut b v { x with addr := setFld x.addr 32 32 w.toNat }
    | 8 => vecPut b v { x with data := w }
    | 12 => if bit w 0 then vecPut b v { x with masked := true } else unmask v b
    | _ => b

/-- Reads a word of BAR2: the MSI-X table at 0, the pending bits at 0x8000 (R277). -/
def bar2Read (b : Block) (off : Nat) : Word :=
  let x := vecGet b (off / 16)
  if off < 0x8000 then
    match off % 16 with
    | 0 => BitVec.ofNat 32 (fld x.addr 0 32)
    | 4 => BitVec.ofNat 32 (fld x.addr 32 32)
    | 8 => x.data
    | _ => at_ 0 x.masked.toNat
  else if off < 0x8100 then
    BitVec.ofNat 32 ((List.range 32).map (fun i => if (vecGet b (8 * (off - 0x8000) + i)).pend then 2 ^ i else 0)).sum
  else 0

/-! ### Enabling and draining (R302, R303, R305) -/

/-- Are a pair's sizes in range (R302)?  Its bases and its doorbell line are aligned by their fields. -/
def sizesOk (b : Block) (q : Nat) : Bool :=
  let r := ringReg b q 0x20008
  let ok := fun k => decide (6 ≤ k) && decide (k ≤ 16)
  ok (fld r 0 5) && ok (fld r 8 5) && (!hasRq b q || ok (fld r 16 5))

/-- Sets `RING_STAT.CFG_ERR` of a pair. -/
def cfgErr (b : Block) (q : Nat) (v : Bool) : Block := regSet b (0x20030 + 2 ^ 22 * (q + 1)) 3 1 v.toNat

/-- Enables a pair, or refuses: its counts start at 0, its doorbell line is read, and what R305 lists is
written again. -/
def enablePair (b : Block) (q : Nat) : Block :=
  let x := rpGet b q
  if sizesOk b q && decide (x.st = 0) then
    let again := ((pairTurns b q).filter (fun e => e.2.replay)).map (fun e => Entry.replayed e.1 e.2.tag)
    let b := rpPut (cfgErr b q false) q { x with
      st := 1, sqHead := 0, sqTail := 0, cqTail := 0, cqHead := 0, rqTail := 0, rqHead := 0, reserved := 0,
      cqFull := false, held := [], replay := again ++ x.held, unreserved := true }
    flushPair (readDoor b (.pair (Fin.ofNat 1024 q))) q
  else cfgErr b q true

/-- A write to `RING_CTRL` of the selected pair: 1 enables, 0 drains; before Swizen is ready an enable waits
for it.  An enable that is refused stores nothing (R302, R303, R428). -/
def ringCtrl (w : Word) (b : Block) : Block :=
  if !writeServed b then b
  else
    let q := regFld b 0x20000 0 10
    let c := b
    let b := regStore b 0x20004 (0x20004 + 2 ^ 22 * (q + 1)) w
    if bit w 0 then
      if isReady b 0 0 && !b.host.busy then
        if sizesOk b q && decide ((rpGet b q).st = 0) then enablePair b q else cfgErr c q true
      else hostMod b (fun h => { h with early := h.early.filter (fun r => r ≠ q) ++ [q] })
    else
      let b := hostMod b (fun h => { h with early := h.early.filter (fun r => r ≠ q) })
      rpMod b q (fun x => { x with st := if x.st = 1 ∨ x.st = 3 then 2 else x.st })

/-- A draining pair whose work is done enters disabled (R303). -/
def ringDrained (q : Nat) (b : Block) : Block :=
  let x := rpGet b q
  if x.st = 2 ∧ x.fetched = [] ∧ x.reading = none ∧ x.fence = none ∧ x.opens = 0 ∧ x.replay = [] ∧ !pairHolds b q ∧ pairTurns b q = []
      ∧ (b.sess.slots.all (fun e => decide (e.2.ring ≠ q) || decide (e.2.turns = []))) then
    event (rpPut b q { x with st := 0, door := 0, reserved := 0 }) 6 q 0 0
  else b

/-- Enables the event ring: `READY` for every unit that is ready (R302, R427). -/
def enableEvents (b : Block) : Block :=
  let k := regFld b 0x20100 8 5
  if 6 ≤ k ∧ k ≤ 16 ∧ !b.host.evtOn then
    let b := readDoor (hostMod b (fun h => { h with evtOn := true, evtTail := 0, evtHead := 0 })) .events
    b.pwr.ready.foldl (fun b e => event b 1 (e.1 / 128) (e.1 % 128) 0) b
  else b

/-- A write to `EVT_CTRL`: 1 enables, and stores nothing where it is refused; 0 disables; while the ring is enabled a write of 1 stores
its other fields as any write does (R18, R302, R427, R428, R507; log 57). -/
def evtCtrl (w : Word) (b : Block) : Block :=
  if !writeServed b then b
  else if bit w 0 then
    if b.host.evtOn then regStore b 0x20100 0x20100 w
    else if isReady b 0 0 && !b.host.busy && (decide (fld w 8 5 < 6) || decide (16 < fld w 8 5)) then b
    else
      let b := regStore b 0x20100 0x20100 w
      if isReady b 0 0 && !b.host.busy then enableEvents b else hostMod b (fun h => { h with earlyEvt := true })
  else
    let b := regStore b 0x20100 0x20100 w
    hostMod b (fun h => { h with evtOn := false, evtDoor := 0, earlyEvt := false })

/-- The enables that waited for Swizen take effect (R428). -/
def lateEnables (b : Block) : Block :=
  let l := b.host.early
  let e := b.host.earlyEvt
  let b := hostMod b (fun h => { h with early := [], earlyEvt := false })
  let b := l.foldl enablePair b
  if e then enableEvents b else b

/-! ### Host-interface reset (R304, R253) -/

/-- One pair in a host-interface reset: disabled, its unchecked descriptors discarded, its completions held. -/
def resetPair (x : RPair) : RPair :=
  { x with
    st := 0, fetched := [], order := [], reading := none, door := 0, cqFull := false, reserved := 0, replay := [],
    held := x.replay.filterMap (fun e => match e with
        | .comp q tag status dtype flags obj detail noIrq _ last =>
          some (.comp q tag status dtype (flags ||| 16) obj detail noIrq 0 last)
        | _ => none) ++ x.held }

/-- Marks every turn in flight suspended (R253). -/
def suspendAll (b : Block) : Block :=
  { b with sess := { b.sess with slots := tmapAll Slot.free b.sess.slots (fun _ z =>
      { z with turns := z.turns.map (fun t => { t with suspended := true }) }) } }

/-- A host-interface reset begins: closing completions that are held are written as `REPLAYED` (R305); one that you request suspends the promise of every turn in flight. -/
def hostReset (b : Block) (requested : Bool) : Block :=
  let b := { b with sess := { b.sess with slots := tmapAll Slot.free b.sess.slots (fun _ z =>
      { z with turns := z.turns.map (fun t => { t with replay := true }),
               held := z.held.map (fun e => match e with
                 | .closing n status flags => .closing n status (flags ||| 16)
                 | e => e) }) } }
  let b := if requested then suspendAll b else b
  let b := { b with regs := warmRegs (fun o => decide (0x20000 ≤ o) && decide (o < 0x30000)) b.regs }
  let b := fltMod b (fun f => { f with hostDown := false })
  hostMod b (fun h => { h with
    pairs := tmapAll RPair.init h.pairs (fun _ x => resetPair x),
    vecs := tmapAll Vec.init h.vecs (fun _ v => { v with count := 0 }),
    evtOn := false, evtDoor := 0, busy := true, early := [], earlyEvt := false, visit := 0, taken := 0 })

/-- A write to `HOSTIF_RESET` (R304, R307, R507). -/
def hostifReset (w : Word) (b : Block) : Block :=
  if writeServed b && bit w 0 && decide (fld w 24 8 = 0x4B) then hostReset b true else b

/-- The host-interface reset ends (R308). -/
def hostifDone (b : Block) : Block :=
  let b := waitsDone (hostMod b (fun h => { h with busy := false })) 8
  let b := (b.host.vecs.map (·.1)).foldl sendPend b
  if isReady b 0 0 then lateEnables b else b

/-- A CXL function-level reset (R278). -/
def funcReset (b : Block) : Block := if isReady b 1 0 && !b.flt.fatal then hostReset b true else b

/-- The CXL link goes down and retrains, at ×8 where ×16 fails (R275, R278, R480). -/
def cxlRetrain (x8 : Bool) (b : Block) : Block :=
  if b.flt.fatal then b
  else
    let b := hostReset (hostMod b (fun h => { h with degraded := x8 })) false
    let b := raise b 0x340 corrected 0 0 0 0 .none
    if x8 then raise b 0x341 corrected 0 0 0 0 .none else b

/-! ### Meanings -/

/-- `DOORBELL_INVALIDATION` (R281). -/
def execDoorbellInvalidation (d : Door) (s : State) : Host.Outcome State Fault Refusal := onBlk (doorSnoop d) s

/-- `DOORBELL_REREAD_RETURN` (R281). -/
def execDoorbellRereadReturn (d : Door) (tail cqHead rqHead : Word) (s : State) : Host.Outcome State Fault Refusal :=
  onBlk (doorReturn d tail cqHead rqHead) s

/-- `DOORBELL_POLL` (R282). -/
def execDoorbellPoll (s : State) : Host.Outcome State Fault Refusal := onBlk doorPoll s

/-- `DESCRIPTOR_FETCH` (R284). -/
def execDescriptorFetch (q : Fin 1024) (d : Line) (s : State) : Host.Outcome State Fault Refusal :=
  onBlk (fetchDesc q.val d) s

/-- `FENCE_DESCRIPTOR` (R293). -/
def execFenceDescriptor (q : Fin 1024) (s : State) : Host.Outcome State Fault Refusal := onBlk (fenceCheck q.val) s

/-- `FENCE_DESCRIPTOR_DONE` (R293). -/
def execFenceDescriptorDone (q : Fin 1024) (s : State) : Host.Outcome State Fault Refusal :=
  onBlk (fenceDone q.val) s

/-- `NOP_DESCRIPTOR` (R293). -/
def execNopDescriptor (q : Fin 1024) (s : State) : Host.Outcome State Fault Refusal := onBlk (nopCheck q.val) s

/-- `MSIX_MODERATION_TIMEOUT` (R301). -/
def execMsixModerationTimeout (v : Fin 2048) (s : State) : Host.Outcome State Fault Refusal :=
  onBlk (modExpire v.val) s

/-- `MSIX_UNMASK` (R301). -/
def execMsixUnmask (v : Fin 2048) (s : State) : Host.Outcome State Fault Refusal := onBlk (unmask v.val) s

/-- `RING_ENABLE` (R302): a write of `RING_CTRL`. -/
def execRingEnable (w : Word) (s : State) : Host.Outcome State Fault Refusal := onBlk (ringCtrl w) s

/-- `RING_DRAIN` (R303): a write of `RING_CTRL`. -/
def execRingDrain (w : Word) (s : State) : Host.Outcome State Fault Refusal := onBlk (ringCtrl w) s

/-- `RING_DISABLED` (R303). -/
def execRingDisabled (q : Fin 1024) (s : State) : Host.Outcome State Fault Refusal := onBlk (ringDrained q.val) s

/-- `EVT_ENABLE` (R427): a write of `EVT_CTRL`. -/
def execEvtEnable (w : Word) (s : State) : Host.Outcome State Fault Refusal := onBlk (evtCtrl w) s

/-- `HOSTIF_RESET` (R304). -/
def execHostifReset (w : Word) (s : State) : Host.Outcome State Fault Refusal := onBlk (hostifReset w) s

/-- `HOSTIF_RESET_DONE` (R308). -/
def execHostifResetDone (s : State) : Host.Outcome State Fault Refusal := onBlk hostifDone s

/-- `FUNCTION_LEVEL_RESET` (R278). -/
def execFunctionLevelReset (s : State) : Host.Outcome State Fault Refusal := onBlk funcReset s

/-- `CXL_LINK_RETRAIN` (R278). -/
def execCxlLinkRetrain (x8 : Bool) (s : State) : Host.Outcome State Fault Refusal := onBlk (cxlRetrain x8) s

end Sys2Proof.Machine
end

