-- ==== Sys2Proof/Machine/Ports.lean ====
section
/-! DEFINITION. Readiness of units, the designated pair port, and what the fabric layer does when a port of the link
changes (R371, R384, R388, R394, R425 to R427). -/

namespace Sys2Proof.Machine

/-! ### Readiness (R425 to R427, R512, R513) -/

/-- A unit enters or leaves ready: its bit changes, then its event is written. -/
def setReady (b : Block) (f u : Nat) (v : Bool) : Block :=
  if isReady b f u = v then b
  else
    let b := pwrMod b (fun w => { w with
      ready := tput false w.ready (128 * f + u) v,
      readyT := if v then tput 0 w.readyT (128 * f + u) b.time else w.readyT })
    event b (if v then 1 else 2) f u 0

/-- The role accepts sessions and loads (R394). -/
def roleServes (b : Block) : Bool := decide (b.pair.role < 2)

/-- The designated pair port of a module with pairing enabled (R393). -/
def pairPort (b : Block) : Option Nat :=
  if bit (regGet b 0x310000) 0 then some (regFld b 0x310000 8 5) else none

/-! ### Reservations on a port (R384 to R388) -/

/-- Reserved load of a link in 0.1 GB/s, the same in both of its directions: of each path that comes in or leaves by it (R385). -/
def resvLoad (b : Block) (l : Nat) : Nat :=
  ((b.fab.resv.filter (fun e => e.port = l)).map (·.rate)).sum + ((b.fab.resv.filter (fun e => e.inp = l)).map (·.rate)).sum

/-- Is a link reservable (R337, R384)? -/
def reservable (b : Block) (l : Nat) : Bool :=
  decide (l < 32) && decide ((fpGet b l).st = 2) && decide ((lpGet b l).rtt ≤ 2080) && !portRouted b l && decide (pairPort b ≠ some l)

/-- Does a rate fit on a link beside what it carries? -/
def resvFits (b : Block) (l rate : Nat) : Bool :=
  reservable b l && decide (12 ≤ (lpGet b l).width) && decide (resvLoad b l + rate ≤ 1500)

/-- Is an entry that of a flow of a source? -/
def Resv.isOf (e : Resv) (flow src : Nat) : Bool := decide (e.flow = flow) && decide (e.src = src)

/-- The header of a `RESV` towards an ID, with the hops it has taken (R368, R386). -/
def resvHdr (dst src flow hops : Nat) : Hdr := ⟨dst, src, hops, false, flow, 0, 0⟩

/-- Moves one reserved path off a link where another valid hop can take it; otherwise it stays and is logged.  The new path is asked
for its rate, and the old one is released where the link still carries it (R388). -/
def moveOne (b : Block) (p : Nat) (e : Resv) : Block :=
  let r : ResvPkt := ⟨BitVec.ofNat 13 e.flow, BitVec.ofNat 12 e.dst, BitVec.ofNat 12 e.src, e.rate, false, none, 0⟩
  match ((entryHops (tget 0 b.fab.act.dest e.dst)).filter (fun q => decide (q ≠ p))).find? (fun q => resvFits b q e.rate) with
  | some q =>
    let b := fabMod b (fun f => { f with resv := f.resv.map (fun x => if x = e then { e with port := q } else x) })
    let b := sendOn b p (resvHdr e.dst e.src e.flow 0) (.resv { r with rate := 0, release := true })
    sendOn b q (resvHdr e.dst e.src e.flow 0) (.resv r)
  | none => raise b 0x3A6 corrected 0 0 0 0 .none

/-- Puts a reservation into a list in ascending flow order. -/
def insResv (e : Resv) : List Resv → List Resv
  | [] => [e]
  | x :: r => if e.flow ≤ x.flow then e :: x :: r else x :: insResv e r

/-- A port's width has fallen below 12, or it has gone down: its reserved paths move, in ascending flow order. -/
def moveResv (b : Block) (p : Nat) : Block :=
  ((b.fab.resv.filter (fun e => e.port = p)).foldr insResv []).foldl (fun b e => moveOne b p e) b

/-- The rate that a flow of a source holds on a link. -/
def rateOn (b : Block) (l flow src : Nat) : Nat :=
  match b.fab.resv.find? (fun e => e.isOf flow src && (decide (e.port = l) || decide (e.inp = l))) with
  | some e => e.rate
  | none => 0

/-- A reservation on a port in deep sleep wakes it (R359). -/
def wakeReserved (b : Block) (l : Nat) : Block := if (lpGet b l).txSleep = 2 then wakeNow b l else b

/-- Sets the reservation of a flow of a source; a rate of 0 removes it. -/
def setResv (b : Block) (e : Resv) : Block :=
  let b := fabMod b (fun f =>
    let l := f.resv.filter (fun x => !x.isOf e.flow e.src)
    { f with resv := if e.rate = 0 then l else l ++ [e] })
  if e.rate = 0 then b else wakeReserved (wakeReserved b e.inp) e.port

/-- Can a flow of a source hold a rate on a link: what it holds already, or more that fits (R384)?  Where a path starts or ends there
is no link. -/
def canHold (b : Block) (l flow src rate : Nat) : Bool :=
  let old := rateOn b l flow src
  decide (544 ≤ l) || decide (rate ≤ old)
    || (reservable b l && decide (12 ≤ (lpGet b l).width) && decide (resvLoad b l - old + rate ≤ 1500))

/-- A reservation request at one module of the path (R385, R386), come in by a link or asked here: the ports it comes in by and leaves
by grant it, in both directions, and it goes on; or it is refused.  Answers what is known at once. -/
def resvHop (b : Block) (input hops : Nat) (r : ResvPkt) : Block × Option Bool :=
  let dst := r.dst.toNat
  let flow := r.flow.toNat
  let src := r.src.toNat
  let inp := min input 544
  if b.fab.node = some dst then
    if canHold b inp flow src r.rate then (setResv b ⟨inp, 544, flow, src, dst, r.rate⟩, some true) else (b, some false)
  else
    match nextHop b false (if input < 544 then portOf input else 32) src dst flow 0 with
    | none => (noRoute b, some false)
    | some q =>
      if canHold b inp flow src r.rate && canHold b q flow src r.rate then
        let old := rateOn b q flow src
        let b := setResv b ⟨inp, q, flow, src, dst, r.rate⟩
        let b := fabMod b (fun f => { f with asking := f.asking ++ [⟨input, flow, src, old⟩] })
        (sendOn b q (resvHdr dst src flow (if input < 544 then hops + 1 else 0)) (.resv r), none)
      else (b, some false)

/-- The turn that waits for a flow's reservation learns its answer, and the part the hops of its path (R258, R386). -/
def resvTold (b : Block) (flow hops : Nat) (ok : Bool) : Block :=
  (b.host.pairs.map (·.1)).foldl (fun b q =>
    match (rpGet b q).reading with
    | some r =>
      let p := (slotGet b r.slot).paddock
      if r.resv = 1 ∧ ((padGet b p).flows.headD 0) = flow then
        let b := if ok then padMod b p (fun x => { x with hops := hops }) else b
        rpMod b q (fun x => { x with reading := some { r with resv := if ok then 2 else 3 } })
      else b
    | none => b) b

/-- An answer goes back to where the request came from, with the hops of the path. -/
def resvBack (b : Block) (input : Nat) (r : ResvPkt) (ok : Bool) (hops pathHops : Nat) : Block :=
  if input < 544 then
    sendOn b input (resvHdr r.src.toNat (b.fab.node.getD 0) r.flow.toNat hops) (.resv { r with answer := some ok, hops := pathHops })
  else if input = 544 then resvTold b r.flow.toNat pathHops ok
  else b

/-- This module asks for a rate on the path of a flow: for a turn (544), or to lower it (545); one without an ID is refused (R368). -/
def resvAsk (b : Block) (input flow peer rate : Nat) : Block :=
  let r : ResvPkt := ⟨BitVec.ofNat 13 flow, BitVec.ofNat 12 peer, BitVec.ofNat 12 (b.fab.node.getD 0), rate, false, none, 0⟩
  if b.fab.node.isNone then resvBack b input r false 0 0
  else
    match resvHop b input 0 r with
    | (b, some ok) => resvBack b input r ok 0 0
    | (b, none) => b

/-! ### The fabric states of a link (R370, R371, R380) -/

/-- The fabric state of a routed link. -/
def rlGet (b : Block) (p w : Nat) : FPort := fpGet b (linkNo p w)

/-- The serial number (R511). -/
def serialNo (b : Block) : Dword := regGet b 0x14 ++ regGet b 0x10

/-- The `HELLO` of a link (R370). -/
def helloMsg (b : Block) (l : Nat) : HelloPkt :=
  { serial := serialNo b, planeB := (fpGet b l).planeB, port := portOf l,
    node := b.fab.node.map (BitVec.ofNat 12), master := bit (regGet b 0x300000) 0 && decide (b.fab.state ≠ 4),
    routed := if l < 32 then none else some (Fin.ofNat 16 (waveOf l)), wave := Fin.ofNat 16 (waveOf l) }

/-- Sends the `HELLO` of a link, with `HOPS` 0 (R370, R380). -/
def sendHello (b : Block) (l : Nat) : Block := sendOn b l (nbrHdr b) (.hello (helloMsg b l))

/-- A link leaves the fabric: its state is down, and its reserved paths move. -/
def fabricDown (b : Block) (l : Nat) : Block := moveResv (fpPut b l FPort.init) l

end Sys2Proof.Machine
end

