-- ==== Sys2Proof/Machine/Lanes.lean ====
section
/-! DEFINITION. Lanes and ports as optical channels: starting and taking down a port, spares, withdrawals and
migrations, engines (R309 to R337, R354 to R357, R362). -/

namespace Sys2Proof.Machine

/-! ### Accessors -/

/-- Changes the optics. -/
def optMod (b : Block) (f : OptS → OptS) : Block := { b with opt := f b.opt }

/-- Direction 1 receives. -/
def dirOf (rx : Bool) : Nat := rx.toNat

/-- The lane of a port, direction and wavelength. -/
def laneGet (b : Block) (p : Nat) (rx : Bool) (k : Nat) : Lane := tget Lane.init b.opt.lanes (36 * p + 18 * dirOf rx + k)

/-- Replaces a lane. -/
def lanePut (b : Block) (p : Nat) (rx : Bool) (k : Nat) (x : Lane) : Block :=
  optMod b (fun o => { o with lanes := tput Lane.init o.lanes (36 * p + 18 * dirOf rx + k) x })

/-- Changes a lane. -/
def laneMod (b : Block) (p : Nat) (rx : Bool) (k : Nat) (f : Lane → Lane) : Block := lanePut b p rx k (f (laneGet b p rx k))

/-- The optical side of a port. -/
def opGet (b : Block) (p : Nat) : OPort := tget OPort.init b.opt.ports p

/-- Changes the optical side of a port. -/
def opMod (b : Block) (p : Nat) (f : OPort → OPort) : Block :=
  optMod b (fun o => { o with ports := tput OPort.init o.ports p (f (tget OPort.init o.ports p)) })

/-- An engine. -/
def engGet (b : Block) (n : Nat) : Eng := tget Eng.init b.opt.eng n

/-- Changes an engine. -/
def engMod (b : Block) (n : Nat) (f : Eng → Eng) : Block :=
  optMod b (fun o => { o with eng := tput Eng.init o.eng n (f (tget Eng.init o.eng n)) })

/-- One wavelength of a laser fibre. -/
def laserGet (b : Block) (f k : Nat) : Laser := tget Laser.init b.opt.lasers (18 * f + k)

/-- Changes one wavelength of a laser fibre. -/
def laserMod (b : Block) (f k : Nat) (g : Laser → Laser) : Block :=
  optMod b (fun o => { o with lasers := tput Laser.init o.lasers (18 * f + k) (g (tget Laser.init o.lasers (18 * f + k))) })

/-- The laser fibre that feeds a port (R309). -/
def fibreOf (p : Nat) : Nat := 2 * (p / 4) + p % 4 / 2

/-- The ports that a laser fibre feeds. -/
def fibrePorts (f : Nat) : List Nat := [2 * f, 2 * f + 1]

/-- The wavelengths. -/
def waves : List Nat := List.range 18

/-- Source ID of an engine (R340). -/
def engSource (n m : Nat) : Nat := 0x200 + 32 * n + m

/-- Source ID of a port's lane events (R340). -/
def portSource (p q : Nat) : Nat := engSource (p / 4) (8 + 6 * (p % 4) + q)

/-- Base of an engine's block (R339). -/
def engBase (n : Nat) : Nat := 0x100000 + 0x10000 * n

/-- The lanes of a link: the wavelengths of its port, or its own one. -/
def linkLanes (l : Nat) : List Nat := if l < 32 then waves else [waveOf l]

/-- Logs a corrected event of a port. -/
def laneEvent (b : Block) (p q : Nat) : Block := raise b (portSource p q) corrected 0 0 0 0 .none

/-! ### Positions and width (R321, R344, R354, R355) -/

/-- Puts a wavelength into a list in ascending position. -/
def insPos (f : Nat → Nat) (k : Nat) : List Nat → List Nat
  | [] => [k]
  | x :: r => if f k ≤ f x then k :: x :: r else x :: insPos f k r

/-- The lanes in service of a direction, by ascending position. -/
def inService (b : Block) (p : Nat) (rx : Bool) : List Nat :=
  (waves.filter (fun k => (laneGet b p rx k).st = 1)).foldr (insPos (fun k => (laneGet b p rx k).pos)) []

/-- The lanes in service of a link. -/
def linkService (b : Block) (l : Nat) (rx : Bool) : List Nat :=
  (inService b (portOf l) rx).filter (fun k => (linkLanes l).contains k)

/-- A link stripes over its lanes in service, and its widths are told (R344, R355). -/
def remap (b : Block) (l : Nat) : Block :=
  let t := linkService b l false
  let r := linkService b l true
  lpMod b l (fun x => { x with txMap := t, rxMap := r }.measure)

/-- Width of a direction. -/
def widthOf (b : Block) (p : Nat) (rx : Bool) : Nat := (inService b p rx).length

/-- A direction restripes: numbering starts again, and `EPOCH` rises by one (R354). -/
def restripe (b : Block) (p : Nat) (rx : Bool) : Block :=
  lpMod (remap b p) p (fun x =>
    if rx then { x with rxEpoch := (x.rxEpoch + 1) % 256, rxFlits := 0 }
    else { x with txEpoch := (x.txEpoch + 1) % 256, flits := 0, twin := none })

/-- A free spare of a direction: the lowest wavelength in spare state (R327). -/
def freeSpare (b : Block) (p : Nat) (rx : Bool) : Option Nat := waves.find? (fun k => (laneGet b p rx k).st = 2)

/-! ### Starting a port (R322 to R324, R336) -/

/-- Is a wavelength dark for a port (R310, R336)? -/
def isDark (b : Block) (p k : Nat) : Bool := !(laserGet b (fibreOf p) k).pilot || (portRouted b p && decide (16 ≤ k))

/-- Step 1 of a port start: what is dark is known, and every lane that has not failed for good is to be tested; a routed link whose lane
has left service stays down (R322, R336). -/
def startLane (b : Block) (p : Nat) (rx : Bool) (k : Nat) : Block :=
  laneMod b p rx k (fun x =>
    if x.dead || (portRouted b p && x.failed) then { x with st := 5, testing := false, locked := false }
    else if isDark b p k then { x with st := 0, testing := false, locked := false, result := none }
    else { x with st := 5, testing := true, locked := false, result := none, below2 := 0, below1 := 0 })

/-- The loops of a port's wavelengths that are not dark are acquired: loops 1 to 3 from the stored ring calibration, by a full sweep
where the store holds none (R322 steps 2 and 3). -/
def startLoops (b : Block) (p : Nat) (ks : List Nat) : Block :=
  let code := bankCode b (p / 4)
  let is := (ks.filter (fun k => !isDark b p k)).flatMap (fun k => (List.range 8).map (fun l => 144 * (p % 4) + 8 * k + l))
  optMod b (fun o => { o with loops := is.foldl (fun m i => tmod LoopS.init m (576 * (p / 4) + i) (fun x =>
    if i % 8 < 3 then { drive := (code i).getD 0, locked := false, atLimit := false, sweep := (code i).isNone }
    else { x with locked := false, atLimit := false })) o.loops })

/-- Begins the start of a link: of a port, or of a routed link by itself (R322, R336). -/
def linkBegin (b : Block) (l : Nat) : Block :=
  let p := portOf l
  let b := lpMod b l (fun x => { LPort.init with st := 1, rtt := x.rtt })
  let b := if l < 32 then opMod b p (fun _ => { OPort.init with phase := 1 }) else b
  startLoops ((linkLanes l).foldl (fun b k => startLane (startLane b p false k) p true k) b) p (linkLanes l)

/-- May a port start (R322, R325, R425)? -/
def canStart (b : Block) (p : Nat) : Bool :=
  isReady b 0 0 && !b.flt.fatal && (engGet b (p / 4)).on && !(engGet b (p / 4)).fenced && !(engGet b (p / 4)).resetting

/-- The admitted lanes of a direction. -/
def admitted (b : Block) (p : Nat) (rx : Bool) : List Nat :=
  waves.filter (fun k => match (laneGet b p rx k).result with
    | some r => decide (6 ≤ r) && !(laneGet b p rx k).dead && decide ((laneGet b p rx k).st ≠ 0)
    | none => false)

/-- Puts a wavelength into a list by descending margin, ties to the lower wavelength. -/
def insMargin (f : Nat → Int) (k : Nat) : List Nat → List Nat
  | [] => [k]
  | x :: r => if f x ≤ f k then k :: x :: r else x :: insMargin f k r

/-- The lanes to put in service (R324). -/
def selection (b : Block) (p : Nat) (rx : Bool) : List Nat :=
  let m := fun k => (laneGet b p rx k).result.getD 0
  let best := ((admitted b p rx).foldr (insMargin m) []).take 16
  waves.filter (fun k => best.contains k)

/-- Puts a direction's selected lanes in service; the other admitted lanes are spares, the others failed. -/
def enterService (b : Block) (p : Nat) (rx : Bool) : Block :=
  let sel := selection b p rx
  let adm := admitted b p rx
  let b := waves.foldl (fun b k => laneMod b p rx k (fun x =>
    if adm.contains k then { x with st := 2, locked := true, failed := false }
    else if x.st = 0 then x else { x with st := 5, failed := true })) b
  sel.zipIdx.foldl (fun b e => laneMod b p rx e.1 (fun x => { x with st := 1, pos := e.2 })) b

/-- Does a lane of a link still wait for its test? -/
def awaits (b : Block) (l : Nat) : Bool :=
  (linkLanes l).any (fun k => (laneGet b (portOf l) false k).testing || (laneGet b (portOf l) true k).testing)

/-- The margin tests of a port start are done: its lanes are selected and the map is sent, or it does not come up
(R322 steps 5 and 6, R324). -/
def selectLanes (b : Block) (p : Nat) : Block :=
  if decide ((opGet b p).phase ≠ 1) || awaits b p then b
  else if 12 ≤ (admitted b p false).length ∧ 12 ≤ (admitted b p true).length then
    let b := remap (enterService (enterService b p false) p true) p
    let b := opMod b p (fun o => { o with phase := 2, nTx := widthOf b p false, nRx := widthOf b p true })
    sendMsg b p (.laneMap (inService b p true))
  else
    let b := opMod (lpMod b p (fun x => { x with st := 0 })) p (fun o => { o with phase := 0 })
    raise b (portSource p 5) contained 0 0 0 0 (.port p)

/-- The tests of a routed link are done: its lane is in service in both directions at position 0, or it has failed (R336). -/
def selectLink (b : Block) (l : Nat) : Block :=
  let p := portOf l
  let k := waveOf l
  if decide ((lpGet b l).st ≠ 1) || awaits b l then b
  else if (admitted b p false).contains k && (admitted b p true).contains k then
    remap ([false, true].foldl (fun b rx => laneMod b p rx k (fun x => { x with st := 1, pos := 0, locked := true, failed := false })) b) l
  else
    let b := [false, true].foldl (fun b rx => laneMod b p rx k (fun x => if x.st = 0 then x else { x with st := 5, failed := true })) b
    lpMod b l (fun x => { x with st := 0 })

/-- The lanes of a starting port or routed link that hold the lane of a wavelength may now be selected. -/
def selectAt (b : Block) (p k : Nat) : Block := if portRouted b p then (if k < 16 then selectLink b (linkNo p k) else b) else selectLanes b p

/-! ### Taking a port down (R333, R356, R357) -/

/-- Ends a calibration: its completion, with result, margins and duration (R334). -/
def calEnd (b : Block) (p result txM rxM : Nat) : Block :=
  match (opGet b p).cal with
  | none => b
  | some c =>
    let d := result + 2 ^ 8 * txM + 2 ^ 16 * rxM + 2 ^ 24 * c.migrated.toNat
      + 2 ^ 32 * ((inUnits (b.time - c.since : Nat) 1000).toNat % 2 ^ 32)
    let e := cookieComp c.pair c.cookie 0 0 d 1 true
    post (opMod b p (fun o => { o with cal := none })) (compItem e) [e]

/-- A calibration that the port's going down ends: its lane is to be tested again at the restart (R333). -/
def calAbandon (b : Block) (p : Nat) : Block :=
  match (opGet b p).cal with
  | none => b
  | some c =>
    calEnd ([false, true].foldl (fun b rx => laneMod b p rx c.wave (fun x => { x with dead := false, failed := false })) b) p 3 0 0

/-- The down notices: for 10 µs where the transmit direction works, one a microsecond, as control messages repeat (R352, R357;
log 131). -/
def sayDown (b : Block) (l : Nat) : Block :=
  let x := lpGet b l
  if x.txMap = [] ∨ (engGet b (portOf l / 4)).fenced ∨ b.opt.lost.contains (fibreOf (portOf l)) then b
  else
    let b := if x.txSleep = 0 then b else emit b (.wakeBurst l (decide (x.txSleep = 2)))
    (List.range 10).foldl (fun b _ => sendCtl b l [(BitVec.ofNat 8 x.ctlNext, .down)] []) b

/-- A link goes down (R357, steps 1 to 3): its notices are sent, its buffers are discarded, and it leaves the fabric. -/
def portFence (b : Block) (l cause : Nat) : Block :=
  let x := lpGet b l
  let p := portOf l
  if x.st = 0 then b
  else
    let b := sayDown b l
    let b := if l < 32 then opMod (calAbandon b p) p (fun _ => OPort.init) else b
    let b := lpPut b l { LPort.init with rtt := x.rtt }
    let b := (linkLanes l).foldl (fun b k => [false, true].foldl (fun b rx => laneMod b p rx k (fun y =>
      if y.st = 0 then y else { y with st := 5, testing := false, locked := false })) b) b
    let b := regSet b (linkBase p + 4) 16 4 cause
    let b := regCount b (linkBase p + 0x2C) 0 32 1
    let b := if (portLinks b p).any (fun m => decide ((lpGet b m).st = 2)) then b else setReady b 5 p false
    fabricDown b l

/-- May a link that is down start: its port may, and a routed link's lane waits for nothing (R322, R336)? -/
def linkStarts (b : Block) (l : Nat) : Bool :=
  let p := portOf l
  canStart b p && decide ((lpGet b l).st = 0) && (decide (l < 32) || [false, true].all (fun rx =>
    let x := laneGet b p rx (waveOf l)
    !x.failed && !x.dead && decide (x.st ≠ 4)))

/-- A link that is down starts again where it can. -/
def linkRestart (b : Block) (l : Nat) : Block := if linkStarts b l then linkBegin b l else b

/-- Every link of a port that is down starts again where it can. -/
def portRestart (b : Block) (p : Nat) : Block := (portLinks b p).foldl linkRestart b

/-- A link goes down with a cause code, and the fault is raised (R356, R357 steps 1 to 4). -/
def linkFails (b : Block) (l cause : Nat) : Block :=
  if (lpGet b l).st = 0 then b
  else raise (portFence b l cause) (0x380 + portOf l) contained (at_ 0 cause) 0 0 0 (.port (portOf l))

/-- A link is declared down with a cause code, and starts again (R356, R357). -/
def downPort (b : Block) (l cause : Nat) : Block :=
  if (lpGet b l).st = 0 then b else linkRestart (linkFails b l cause) l

/-- Every link of a port is declared down. -/
def downLinks (b : Block) (p cause : Nat) : Block := (portLinks b p).foldl (fun b l => downPort b l cause) b

/-! ### Engines (R325, R335, R340, R362, R448) -/

/-- The ports of an engine. -/
def engPorts (n : Nat) : List Nat := [4 * n, 4 * n + 1, 4 * n + 2, 4 * n + 3]

/-- An engine is fenced: it is held, and its four ports go down. -/
def fenceEngine (b : Block) (n : Nat) : Block :=
  (engPorts n).foldl (fun b p => downLinks b p 8) (engMod b n (fun e => { e with fenced := true }))

/-- The parity unit interval of a die-to-die frame: even over its 16 data unit intervals (R362). -/
def parityUi (w : BitVec 16) : Bool := (List.range 16).foldl (fun v i => v ^^ w.getLsbD i) false

/-- The lanes of a direction that fail its lane test, data lanes 0 to 511 and spares 512 to 527: a free value (R362, log 21). -/
def failingLanes (b : Block) (n : Nat) (up : Bool) (draw : Nat) : List Nat :=
  let l := Config.badLanes n up (b.freeCtr + draw)
  (List.range 528).filter (fun k => l.contains k)

/-- The spares that replace a direction's failing data lanes: each the lowest spare that is free and has passed (R362). -/
def repairs (bad : List Nat) : List (Nat × Nat) :=
  ((List.range 16).filter (fun s => !bad.contains (512 + s))).zip (bad.filter (fun k => k < 512))

/-- The die-to-die lane test of an engine (R362): spares replace the failing lanes, lowest first. -/
def laneTest (b : Block) (n : Nat) : Block :=
  let d := failingLanes b n false 0
  let u := failingLanes b n true 1
  let b := { b with freeCtr := b.freeCtr + 2 }
  let ok := decide (d.length ≤ 16) && decide (u.length ≤ 16)
  let b := engMod b n (fun e => { e with on := true, fenced := !ok, trained := ok, resetting := false, down := repairs d, up := repairs u })
  if !ok then raise b (0x300 + 8 * n + 2) contained 0 0 0 0 (.engine n)
  else if repairs d ≠ [] ∨ repairs u ≠ [] then raise b (0x300 + 8 * n + 3) corrected 0 0 0 0 .none
  else b

/-- The routed-wavelength mode that an engine's reset puts in force (R335). -/
def routedMode (b : Block) (n : Nat) : Block :=
  let want := bit (regGet b (engBase n)) 0
  let hold := (pairPort b).any (fun p => decide (p / 4 = n))
  let b := if want && hold then regSet b (engBase n + 4) 4 1 1 else b
  regSet b (engBase n + 4) 3 1 (want && !hold).toNat

/-- What a per-engine reset makes of a lane: the failed state survives, but for a routed link, which returns (R325, R336). -/
def resetLane (routed : Bool) (x : Lane) : Lane :=
  if routed then { x with failed := false, dead := false } else { x with dead := x.dead || x.failed }

/-- A per-engine reset begins (R325): its ports go down, and its blocks take their warm reset values. -/
def resetEngine (b : Block) (n : Nat) : Block :=
  let b := fenceEngine b n
  let sel := fun o => (decide (engBase n ≤ o) && decide (o < engBase n + 0x10000))
    || (engPorts n).any (fun p => decide (linkBase p ≤ o) && decide (o < linkBase p + 0x1000))
  let b := { b with regs := warmRegs sel b.regs }
  let b := (engPorts n).foldl (fun b p => waves.foldl (fun b k => [false, true].foldl (fun b rx =>
    laneMod b p rx k (resetLane (portRouted b p))) b) b) b
  let b := fltMod b (fun f => { f with
    held := f.held.filter (fun k => k ≠ n),
    log := f.log.map (fun r => if f.waits.contains (n, r.num) then { r with action := 4 } else r) })
  engMod (pwrMod b (fun w => { w with hot := w.hot.filter (fun k => k ≠ n) })) n (fun e => { e with resetting := true })

/-- A per-engine reset in progress ends: the lanes to the base die are tested, and every port starts (R325, R335, R362). -/
def engineDone (b : Block) (n : Nat) : Block :=
  if (engGet b n).resetting then (engPorts n).foldl portRestart (laneTest (routedMode (waitsDone b n) n) n) else b

/-! ### Spare lasers (R313) -/

/-- Is a wavelength's spare request refused: `SPARE_REFUSED` of one of its entries? -/
def spareRefused (b : Block) (k : Nat) : Bool :=
  (List.range 16).any (fun f => bit (regGet b (engBase (f / 2) + 0x40 + 4 * (18 * (f % 2) + k))) 19)

/-- A spare laser is wanted for a wavelength on a laser fibre: one request of a wavelength is outstanding at a time,
none after a refusal, and none while the sideband has failed (R312, R313). -/
def wantSpare (b : Block) (f k : Nat) : Block :=
  if (tget none b.opt.spares k).isSome || spareRefused b k || bit (regGet b 0x100800) 1 then b
  else optMod b (fun o => { o with spares := tput none o.spares k (some ⟨f, b.time, false⟩) })

/-- The lanes of a wavelength that await their laser become failed (R330). -/
def giveUp (b : Block) (k : Nat) : Block :=
  (List.range 32).foldl (fun b p => laneMod b p false k (fun x =>
    if x.st = 7 then { x with st := 5, testing := false, failed := true } else x)) b

/-- A spare request is refused, or has failed (R313). -/
def spareFailed (b : Block) (k : Nat) : Block :=
  match tget none b.opt.spares k with
  | none => b
  | some r =>
    let b := optMod b (fun o => { o with spares := tput none o.spares k none })
    let b := regSet b (engBase (r.fibre / 2) + 0x40 + 4 * (18 * (r.fibre % 2) + k)) 19 1 1
    giveUp (raise b (engSource (r.fibre / 2) 6) corrected 0 0 0 0 .none) k

/-- A spare laser is active: the lanes that awaited it are tested again (R313, R330). -/
def spareActive (b : Block) (k : Nat) : Block :=
  match tget none b.opt.spares k with
  | none => b
  | some r =>
    let b := optMod b (fun o => { o with spares := tput none o.spares k none })
    let b := laserMod b r.fibre k (fun l => { l with active := true })
    (List.range 32).foldl (fun b p => laneMod b p false k (fun x => if x.st = 7 then { x with testing := true } else x)) b

/-! ### Announced boundaries (R328 step 5, R352, R354) -/

/-- Announces the boundary of a direction at which a lane leaves, or its position moves to a spare: 64 flits ahead.  `st` is the state
of the leaving lane where it is settled. -/
def announce (b : Block) (p : Nat) (rx : Bool) (old spare : Nat) (st : Option Nat) : Block :=
  let x := lpGet b p
  let n := (if rx then x.rxFlits else x.flits) + 64
  let live := if spare < 18 then (laneGet b p rx spare).live else 0
  sendMsg (lpMod b p (fun x => { x with bounds := x.bounds ++ [⟨rx, old, spare, n, some x.ctlNext, st⟩] })) p (.boundary rx old spare n live)

/-- A lane in service is to leave at the next boundary, for a state: an announced boundary of it is kept, otherwise one is announced
(R318, R327, R354). -/
def leaveService (b : Block) (p : Nat) (rx : Bool) (k st : Nat) : Block :=
  let mine := fun (e : Bound) => decide (e.rx = rx) && decide (e.old = k)
  if (lpGet b p).bounds.any mine then
    lpMod b p (fun x => { x with bounds := x.bounds.map (fun e => if mine e then { e with st := some st } else e) })
  else announce b p rx k 18 (some st)

/-! ### Migration (R327 to R329, R332, R354, R361) -/

/-- The position a direction misses: the lowest below its number at link-up that no lane holds or is being trained
for. -/
def missingPos (b : Block) (p : Nat) : Option Nat :=
  let held := (waves.filter (fun k => (laneGet b p true k).st = 1 ∨ (laneGet b p true k).st = 3)).map
    (fun k => (laneGet b p true k).pos)
  (List.range (opGet b p).nRx).find? (fun i => !held.contains i)

/-- The receiver claims a spare for a position and asks the transmitter (R328, step 1); `old` is 18 where the lane that held it is
gone. -/
def claimSpare (b : Block) (p old pos k : Nat) : Block :=
  let b := laneMod b p true k (fun x => { x with st := 3, pos := pos, below2 := 0, below1 := 0 })
  let b := opMod b p (fun o => { o with rx := some ⟨old, k, pos, false⟩ })
  sendMsg b p (.migrate old k pos)

/-- With no migration in progress, the next one that waits begins; then a missing position is refilled (R328, R329,
R333). -/
def nextMigr (b : Block) (p : Nat) : Block :=
  let o := opGet b p
  if o.rx.isSome || portRouted b p then b
  else
    let w := o.wait.filter (fun k => (laneGet b p true k).st = 1)
    match freeSpare b p true, w with
    | some s, old :: r => claimSpare (opMod b p (fun o => { o with wait := r })) p old (laneGet b p true old).pos s
    | some s, [] =>
      match missingPos b p with
      | some i => claimSpare b p 18 i s
      | none => b
    | none, _ => b

/-- A receive lane is to migrate away, where a free spare exists (R327, R328). -/
def wantMigr (b : Block) (p k : Nat) : Block :=
  let o := opGet b p
  if (freeSpare b p true).isNone || o.wait.contains k || o.rx.any (fun m => decide (m.old = k)) then b
  else nextMigr (opMod b p (fun o => { o with wait := o.wait ++ [k] })) p

/-- A lane in service leaves service for a state, at its boundary: the direction narrows (R321, R327, R329, R354, R355). -/
def withdraw (b : Block) (p : Nat) (rx : Bool) (k st : Nat) : Block :=
  let was := widthOf b p rx
  let b := laneMod b p rx k (fun x => { x with st := st, locked := false, failed := x.failed || decide (st = 5) })
  let b := regCount (restripe b p rx) (engBase (p / 4) + 0x700) 16 16 1
  let b := if was = 16 then laneEvent b p 3 else b
  let b := if widthOf b p rx < 12 then moveResv b p else b
  if rx then (if widthOf b p true = 0 then downPort b p 5 else nextMigr b p) else b

/-- A lane of a routed link takes its link down: the lane takes a state, and no restart follows (R336). -/
def routedDown (b : Block) (p : Nat) (rx : Bool) (k st : Nat) : Block :=
  let b := regCount (linkFails b (linkNo p k) 5) (engBase (p / 4) + 0x700) 16 16 1
  let gone := decide (st = 5)
  let b := laneMod b p (!rx) k (fun x => { x with failed := x.failed || gone })
  laneMod b p rx k (fun x => { x with st := st, locked := false, failed := x.failed || gone })

/-- A receive lane has lost symbol lock: it is withdrawn at once, and the far end is told afterwards (R329, R336, R354). -/
def dropLane (b : Block) (p k : Nat) : Block :=
  if portRouted b p then routedDown b p true k 5
  else
    let b := withdraw b p true k 5
    if (lpGet b p).st = 2 then sendMsg b p (.withdraw k) else b

/-- The spare of a receive migration is lost to it, for a state: the next free spare is tried; with none, the old lane stays (R328
step 3, R318). -/
def spareGone (b : Block) (p k st : Nat) (dead : Bool) : Block :=
  match (opGet b p).rx with
  | some m =>
    if m.spare = k then
      let b := laneMod b p true k (fun x => { x with st := st, locked := false, dead := x.dead || dead, failed := x.failed || dead })
      let b := opMod b p (fun o => { o with rx := none })
      let b := lpMod b p (fun x => { x with bounds := x.bounds.filter (fun e => !(e.rx && decide (e.spare = k))) })
      match freeSpare b p true with
      | some s => claimSpare b p m.old m.pos s
      | none => nextMigr b p
    else b
  | none => b

/-- The spare of a receive migration has failed its training (R328 step 3). -/
def spareFails (b : Block) (p k : Nat) : Block := spareGone b p k 5 true

/-- The spare of a transmit migration is lost to it, for a state; its receiver finds it failed. -/
def txSpareGone (b : Block) (p k st : Nat) : Block :=
  let b := laneMod b p false k (fun x => { x with st := st, locked := false })
  let b := if (opGet b p).tx.any (fun m => decide (m.spare = k)) then opMod b p (fun o => { o with tx := none }) else b
  lpMod b p (fun x => { x with twin := if x.twin.any (fun e => decide (e.2 = k)) then none else x.twin })

/-- What the old lane becomes at the switch: calibrating; recovering where it is to be tested again, with its equaliser as it was
trained, or a spare laser is requested for it; otherwise failed (R328 step 6, R332, R361). -/
def oldLane (b : Block) (p : Nat) (rx : Bool) (k : Nat) (x : Lane) : Lane :=
  if (opGet b p).cal.any (fun c => decide (c.wave = k)) then { x with st := 6 }
  else if (opGet b p).farCal = some k then { x with st := 6, testing := true }
  else if rx && (opGet b p).retrain.contains k then { x with st := 7, testing := true, fom := x.fs }
  else if !rx && (tget none b.opt.spares k).isSome then { x with st := 7 }
  else { x with st := 5, failed := true }

/-- At a flit boundary a position moves to its spare (R328 steps 5 and 6, R354).  A replacement of a lane that is gone is no migration
(R329). -/
def switchLane (b : Block) (p : Nat) (e : Bound) : Block :=
  let pos := (laneGet b p e.rx e.spare).pos
  let moved := decide (e.old < 18) && decide ((laneGet b p e.rx e.old).st = 1)
  let b := if moved then laneMod b p e.rx e.old (fun x => match e.st with
      | some s => { x with st := s, locked := false, failed := x.failed || decide (s = 5) }
      | none => oldLane b p e.rx e.old x) else b
  let b := laneMod b p e.rx e.spare (fun x => { x with st := 1, pos := pos, locked := true, below2 := 0, below1 := 0 })
  let b := restripe b p e.rx
  let b := if moved then laneEvent (regCount b (engBase (p / 4) + 0x700) 0 16 1) p 0 else b
  let b := opMod b p (fun o =>
    let o := { o with cal := o.cal.map (fun (c : Cal) => if moved && decide (c.wave = e.old) then { c with migrated := true } else c) }
    if e.rx then { o with rx := none, retrain := o.retrain.filter (fun k => k ≠ e.old) } else { o with tx := none })
  if e.rx then nextMigr b p else b

/-- The transmitter takes a migration request: the spare is enabled and trained; a spare that was in training for the position has
failed; a laser below +8.0 dBm asks for its spare (R313, R328 step 2). -/
def takeMigr (b : Block) (p old spare pos : Nat) : Block :=
  let b := match (opGet b p).tx with
    | some m =>
      if m.pos = pos ∧ m.spare ≠ spare then laneMod b p false m.spare (fun x => { x with st := 5, dead := true, failed := true }) else b
    | none => b
  let b := laneMod b p false spare (fun x => { x with st := 3, pos := pos })
  let b := opMod b p (fun o => { o with tx := some ⟨old, spare, pos, false⟩ })
  let b := emit b (.trainBurst p spare)
  let l := laserGet b (fibreOf p) old
  let low := match l.power with
    | some d => decide (d < 800)
    | none => l.low
  if low && decide (old < 18) && decide ((laneGet b p false old).st = 1) then wantSpare b (fibreOf p) old else b

end Sys2Proof.Machine
end

