-- ==== Sys2Proof/Machine/Optics.lean ====
section
/-! DEFINITION. The commands of the optical engines: lasers and tones, loops, margins, migrations, calibration, resets
(R309 to R339). -/

namespace Sys2Proof.Machine

/-! ### Tones and mislocks (R310, R318) -/

/-- A tone is matched when it lies within 100 Hz of its grid value. -/
def toneOk (k : Nat) (f : Option Nat) : Bool :=
  match f with
  | some f => decide ((10 + k) * 1000 ≤ f + 100) && decide (f ≤ (10 + k) * 1000 + 100)
  | none => false

/-- The link that a lane belongs to. -/
def laneLink (b : Block) (p k : Nat) : Nat := if portRouted b p then linkNo p k else p

/-- A mislock of a lane (R318): it is counted, and the lane is held out of service, or failed at the third; a calibration sweeps on. -/
def mislock (b : Block) (p : Nat) (rx : Bool) (k : Nat) : Block :=
  let x := laneGet b p rx k
  if x.st = 0 ∨ x.dead ∨ (x.st = 5 ∧ !x.testing) then b
  else
    let n := x.mislocks + 1
    let st := if 3 ≤ n then 5 else 4
    let b := laneMod b p rx k (fun x => { x with
      mislocks := min 3 n, dead := decide (3 ≤ n), failed := x.failed || decide (3 ≤ n), testing := x.testing && decide (n < 3) })
    let b := laneEvent (regCount b (engBase (p / 4) + 0x704) 0 16 1) p 1
    let b := if 3 ≤ n then laneEvent b p 2 else b
    if x.st = 1 then (if portRouted b p then routedDown b p rx k st else leaveService b p rx k st)
    else if x.st = 3 then (if rx then spareGone b p k st false else txSpareGone b p k st)
    else if x.st = 6 then b
    else if x.testing && decide (n < 3) then b
    else selectAt (laneMod b p rx k (fun x => { x with st := st, locked := false })) p k

/-- A lane's wavelength becomes dark (R310, R318, R354). -/
def laneDark (b : Block) (p : Nat) (rx : Bool) (k : Nat) : Block :=
  let x := laneGet b p rx k
  if x.st = 1 then (if portRouted b p then routedDown b p rx k 0 else leaveService b p rx k 0)
  else if x.st = 3 then (if rx then spareGone b p k 0 false else txSpareGone b p k 0)
  else if x.dead then b
  else laneMod b p rx k (fun x => { x with st := 0, testing := false, locked := false, result := none })

/-- A wavelength of a laser fibre becomes dark, or its tone matches (R310, R318). -/
def setPilot (b : Block) (f k : Nat) (v : Bool) : Block :=
  let b := laserMod b f k (fun l => { l with pilot := v })
  if v then b else (fibrePorts f).foldl (fun b p => selectAt (laneDark (laneDark b p false k) p true k) p k) b

/-- Do the pilot checks of a direction run: always but in deep sleep outside a re-track window (R360)? -/
def checksRun (b : Block) (p : Nat) (rx : Bool) (k : Nat) : Bool :=
  let x := lpGet b (laneLink b p k)
  decide ((if rx then x.rxSleep else x.txSleep) ≠ 2) || decide (b.time < x.trackEnd)

/-- A tone window of a laser fibre ends: `tones` are the measured frequencies in Hz, `wrong` the lanes of the engine
(36 j + 18 d + k) where a ring drops another tone. -/
def pilotWindow (n f : Nat) (tones : List (Option Nat)) (wrong : List Nat) (b : Block) : Block :=
  let g := 2 * n + f
  let b := waves.foldl (fun b k => setPilot b g k (toneOk k (tones.getD k none))) b
  (wrong.filter (fun i => i < 144)).foldl (fun b i =>
    if checksRun b (4 * n + i / 36) (decide (18 ≤ i % 36)) (i % 18) then mislock b (4 * n + i / 36) (decide (18 ≤ i % 36)) (i % 18) else b) b

/-! ### Laser power and the sideband (R311 to R313) -/

/-- Does a measured power lie below a value in 0.01 dBm?  A tone that is gone lies below every one. -/
def powerBelow (d : Option Int) (v : Int) : Bool :=
  match d with
  | some d => decide (d < v)
  | none => true

/-- One wavelength's power. -/
def powerAt (b : Block) (f k : Nat) (d : Option Int) : Block :=
  let l := laserGet b f k
  let b := laserMod b f k (fun l => { l with
    power := d, low := powerBelow d 800 || (l.low && powerBelow d 821) })
  let b := if powerBelow d 800 && !l.low then raise b (engSource (f / 2) 4) corrected 0 0 0 0 .none else b
  if powerBelow d 650 then wantSpare b f k else b

/-- A power measurement of a laser fibre: thresholds, and its loss (R311). -/
def powerMeasure (n f : Nat) (power : List (Option Int)) (b : Block) : Block :=
  let g := 2 * n + f
  let b := waves.foldl (fun b k => powerAt b g k (power.getD k none)) b
  let gone := waves.all (fun k => (power.getD k none).isNone)
  if gone then
    if b.opt.lost.contains g then b
    else
      let b := optMod b (fun o => { o with lost := o.lost ++ [g] })
      let b := raise b (engSource n (2 + f)) contained 0 0 0 0 (.port (2 * g))
      (fibrePorts g).foldl (fun b p => downLinks b p 8) b
  else optMod b (fun o => { o with lost := o.lost.filter (fun h => h ≠ g) })

/-- The sideband has failed (R312): the event names the engine of the laser fibre concerned, or OE0. -/
def sidebandFailed (b : Block) (n : Nat) : Block :=
  raise (regSet b 0x100800 1 1 1) (engSource n 5) corrected 0 0 0 0 .none

/-- The answer to `SPARE_STAT`, or none, as 500 ms pass (R313). -/
def spareAnswer (b : Block) (k : Nat) (a : Option Nat) : Block :=
  match tget none b.opt.spares k with
  | none => b
  | some r =>
    if a = some 2 then spareActive b k
    else if a = some 3 ∨ r.since + 500000000 ≤ b.time then spareFailed b k
    else b

/-- The tries of a transaction: each is put out, until one is acknowledged; three at most (R312). -/
def sidebandTries (cmd arg : Byte) (answers : List (Option (List Byte))) : Nat → Nat → Block → Block × Option (List Byte)
  | 0, _, b => (b, none)
  | t + 1, n, b =>
    match answers[n]? with
    | some (some a) => (emit b (.sideband cmd arg (n + 1)), some a)
    | _ => sidebandTries cmd arg answers t (n + 1) (emit b (.sideband cmd arg (n + 1)))

/-- A poll of `SPARE_STAT` of wavelength `k`; a request that has not been granted only times out. -/
def sparePoll (k : Nat) (answers : List (Option (List Byte))) (b : Block) : Block :=
  match tget none b.opt.spares k with
  | some r =>
    if !r.granted then spareAnswer b k none
    else
      let w := sidebandTries 4 (BitVec.ofNat 8 k) answers 3 0 b
      match w.2 with
      | some a => spareAnswer w.1 k (some (byteAt a 0).toNat)
      | none => spareAnswer (sidebandFailed w.1 (r.fibre / 2)) k none
  | none => b

/-- The answer to `SPARE_REQ` (R313). -/
def spareReqAnswer (b : Block) (k a : Nat) : Block :=
  match tget none b.opt.spares k with
  | none => b
  | some r =>
    if a = 2 ∨ a = 3 then spareFailed b k
    else optMod b (fun o => { o with spares := tput none o.spares k (some { r with granted := true }) })

/-- A transaction on the sideband (R312). -/
def sideband (cmd arg : Byte) (answers : List (Option (List Byte))) (b : Block) : Block :=
  let k := arg.toNat
  let asked := match tget none b.opt.spares k with
    | some r => !r.granted
    | none => false
  if !isReady b 0 0 || (decide (cmd = 3) && !asked) || cmd = 0 || decide (4 < cmd.toNat) then b
  else
    let fibre := match tget none b.opt.spares k with
      | some r => r.fibre
      | none => 0
    let n := if 3 ≤ cmd.toNat then fibre / 2 else if cmd = 2 then k / 2 % 8 else 0
    let b := if cmd = 3 then regCount b (engBase n + 0x704) 16 16 1 else b
    let r := sidebandTries cmd arg answers 3 0 b
    match r.2 with
    | none => sidebandFailed r.1 n
    | some a =>
      if cmd = 1 then optMod r.1 (fun o => { o with present := true })
      else if cmd = 3 then spareReqAnswer r.1 k (byteAt a 0).toNat
      else if cmd = 4 then spareAnswer r.1 k (some (byteAt a 0).toNat)
      else r.1

/-! ### Loops (R315 to R318) -/

/-- Does loop l - 1 of an index belong to the receive direction? -/
def loopRx (i : Nat) : Bool := decide (3 ≤ i % 8)

/-- Is the bias of a receive direction on: but in deep sleep outside a re-track window (R358)? -/
def biasOn (b : Block) (l : Nat) : Bool := decide ((lpGet b l).rxSleep ≠ 2) || decide (b.time < (lpGet b l).trackEnd)

/-- Are a lane's loops held or frozen: in service, in a direction that sleeps, outside a re-track window (R316, R358)? -/
def loopsHeld (b : Block) (p : Nat) (rx : Bool) (k : Nat) : Bool :=
  let l := laneLink b p k
  let x := lpGet b l
  decide ((laneGet b p rx k).st = 1) && (if rx then decide (x.rxSleep = 1) || !biasOn b l else decide (x.txSleep ≠ 0))

/-- A loop update of an engine: drives and locks; the loops of dark lanes are held off (R316), those of a sleeping direction held
(R358). -/
def loopUpdates (n : Nat) (l : List LoopSample) (b : Block) : Block :=
  l.foldl (fun b e =>
    let p := 4 * n + e.index / 144
    let k := e.index % 144 / 8
    let rx := loopRx e.index
    let d := e.drive.toNat
    let ends := decide (d * 20 < 65535) || decide (65535 * 19 < d * 20)
    if 576 ≤ e.index ∨ loopsHeld b p rx k then b
    else
      optMod b (fun o => { o with loops := tmod LoopS.init o.loops (576 * n + e.index) (fun x =>
        if (laneGet b p rx k).st = 0 then LoopS.init
        else { drive := d, locked := e.locked, atLimit := x.atLimit && ends, sweep := x.sweep && !e.locked }) })) b

/-- A loop has stayed at an end of its range (R317): a lane in service migrates as below 2.0 dB; that of a transmit lane, which the
receiver decides, is asked of it; a routed link has no spare (R336). -/
def loopLimit (n i : Nat) (b : Block) : Block :=
  let p := 4 * n + i / 144
  let k := i % 144 / 8
  let b := optMod b (fun o => { o with loops := tmod LoopS.init o.loops (576 * n + i) (fun x => { x with atLimit := true }) })
  let b := laneEvent b p 4
  if (laneGet b p (loopRx i) k).st ≠ 1 then b
  else if portRouted b p then laneEvent b p 0
  else if loopRx i then wantMigr b p k
  else sendMsg b p (.away k false)

/-- A lane whose loop cannot lock, or whose heater driver reports a fault, is failed (R317). -/
def laneFails (b : Block) (p : Nat) (rx : Bool) (k : Nat) : Block :=
  let x := laneGet b p rx k
  if x.st = 0 then b
  else
    let b := laneMod b p rx k (fun x => { x with dead := true, failed := true })
    if x.st = 1 then (if portRouted b p then routedDown b p rx k 5 else leaveService b p rx k 5)
    else if x.st = 3 then (if rx then spareGone b p k 5 true else txSpareGone b p k 5)
    else if x.st = 6 then b
    else selectAt (laneMod b p rx k (fun x => { x with st := 5, testing := false, locked := false })) p k

/-- A sweep ends (R317, R318): a held lane whose tone has matched becomes a spare, or starts its routed link again; a lane that cannot
lock fails. -/
def sweepDone (p : Nat) (rx : Bool) (k : Nat) (locked : Bool) (b : Block) : Block :=
  if !locked then laneFails b p rx k
  else if (laneGet b p rx k).st ≠ 4 then b
  else if portRouted b p then linkRestart (laneMod b p rx k (fun x => { x with st := 5 })) (linkNo p k)
  else
    let b := laneMod b p rx k (fun x => { x with st := 2, locked := true })
    let b := if (lpGet b p).st = 2 then sendMsg b p (.spare rx k) else b
    if rx then nextMigr b p else b

/-! ### Port starts and margins (R322 to R327, R330, R336) -/

/-- A port starts, where an engine's reset is in progress at the end of it (R322, R325). -/
def portStart (p : Nat) (b : Block) : Block := portRestart (engineDone b (p / 4)) p

/-- The far end has not answered within 100 ms: step 1 again, for each link that has not selected its lanes. -/
def startTimeout (p : Nat) (b : Block) : Block :=
  if !canStart b p then b
  else (portLinks b p).foldl (fun b l =>
    if (lpGet b l).st = 1 ∧ (if l < 32 then (opGet b p).phase = 1 else (lpGet b l).txMap = []) then linkBegin b l else b) b

/-- The last passing step of a margin test with the given error counts (R323). -/
def marginResult (errs : List Nat) : Int := (((errs.take 21).takeWhile (fun e => e ≤ 4026)).length : Int) - 1

/-- A lane after a margin test: its result, its figure of merit, and its margin, which is `MARGIN_START` at step 0 (R323, R326). -/
def Lane.tested (x : Lane) (r fom0 : Int) : Lane :=
  { x with testing := false, result := some r, start := r.toNat, fs := fom0, fom := fom0, live := min 255 (5 * r.toNat) }

/-- Does a test of a lane count: it is due, or the far end has asked for it of a receive lane that has left service (R330)? -/
def testDue (b : Block) (p : Nat) (rx : Bool) (x : Lane) : Bool :=
  x.testing || (rx && decide (x.st = 5) && !x.dead && decide ((lpGet b p).st = 2) && !portRouted b p)

/-- A margin test of a lane ends (R323, R324, R330, R332). -/
def marginDone (p : Nat) (rx : Bool) (k : Nat) (errs : List Nat) (fom0 : Int) (b : Block) : Block :=
  let x := laneGet b p rx k
  let r := marginResult errs
  if !testDue b p rx x then b
  else if (opGet b p).phase = 1 ∨ portRouted b p then selectAt (lanePut b p rx k (x.tested r fom0)) p k
  else
    let b := if x.st = 6 ∧ (laneGet b p (!rx) k).st ≠ 6 then opMod b p (fun o => { o with farCal := none }) else b
    if 6 ≤ r then
      let b := lanePut b p rx k { x.tested r fom0 with
        st := 2, locked := true, failed := false, mislocks := if x.st = 6 then 0 else x.mislocks }
      if rx then nextMigr (sendMsg b p (.spare true k)) p else b
    else lanePut b p rx k { x.tested r fom0 with st := 5, failed := true }

/-- Live margin of a lane in 0.01 dB, at a figure of merit (R326). -/
def liveMargin (x : Lane) (fom : Int) : Int := 50 * x.start + (fom - x.fs)

/-- `MARGIN_LIVE` for a margin. -/
def liveCode (m : Int) : Nat := min 255 (m / 10).toNat

/-- May a receive lane be measured or adapted: its direction is awake, and has been for the 100 µs of an estimate (R360)? -/
def measures (b : Block) (l wait : Nat) : Bool :=
  decide ((lpGet b l).rxSleep = 0) && decide ((lpGet b l).rxWoke = 0 ∨ (lpGet b l).rxWoke + wait ≤ b.time)

/-- A live margin estimate (R326, R327, R336); suspended while the direction sleeps (R360). -/
def marginEstimate (p k : Nat) (fom : Int) (b : Block) : Block :=
  let x := laneGet b p true k
  if !measures b (laneLink b p k) 100000 ∨ (x.st ≠ 1 ∧ x.st ≠ 3) then b
  else
    let m := liveMargin x fom
    let n2 := if m < 200 then min 3 (x.below2 + 1) else 0
    let n1 := if m < 100 then min 3 (x.below1 + 1) else 0
    let b := lanePut b p true k { x with fom := fom, live := liveCode m, below2 := n2, below1 := n1 }
    if x.st ≠ 1 then b
    else if portRouted b p then
      let b := if n2 = 3 ∧ x.below2 ≠ 3 then laneEvent b p 0 else b
      if n1 = 3 then routedDown b p true k 5 else b
    else if n2 = 3 ∧ (freeSpare b p true).isSome then wantMigr b p k
    else if n1 = 3 ∧ (opGet b p).rx.all (fun o => decide (o.old ≠ k)) then leaveService b p true k 5
    else b

/-! ### Migration (R328, R329, R354, R361) -/

/-- A migration request arrives at the transmitter; a sleeping direction wakes first (R328, R360). -/
def migrationRequest (p old spare pos : Nat) (b : Block) : Block :=
  if (lpGet b p).st = 2 ∧ (laneGet b p false spare).st = 2 then takeMigr (wakeNow b p) p old spare pos else b

/-- The receiver has adapted on the spare (R328 step 3). -/
def trainingDone (p k errs : Nat) (fom : Int) (b : Block) : Block :=
  match (opGet b p).rx with
  | some m =>
    if m.spare = k ∧ !m.passed then
      let x := laneGet b p true k
      let d := liveMargin x fom
      let b := lanePut b p true k { x with fom := fom, live := liveCode d }
      if errs ≤ 251 ∧ 300 ≤ d then
        announce (opMod b p (fun o => { o with rx := some { m with passed := true } })) p true m.old k none
      else spareFails b p k
    else b
  | none => b

/-- This module's announcement of a boundary is withdrawn, and a later one made (R352). -/
def reannounce (b : Block) (p : Nat) (e : Bound) : Block :=
  announce (lpMod b p (fun x => { x with
    bounds := x.bounds.filter (fun d => decide (d ≠ e)), ctl := x.ctl.filter (fun m => decide (some m.1 ≠ e.seq)) })) p e.rx e.old e.spare e.st

/-- The flit boundary that was announced first for a direction: once its count is reached, and unless this module's announcement still
waits for its echo (R352, R354). -/
def boundarySwitch (p : Nat) (rx : Bool) (b : Block) : Block :=
  let x := lpGet b p
  match x.bounds.find? (fun e => e.rx = rx) with
  | some e =>
    if (if rx then x.rxFlits else x.flits) < e.count then b
    else if x.ctl.any (fun m => decide (some m.1 = e.seq)) then reannounce b p e
    else
      let b := lpMod b p (fun x => { x with bounds := x.bounds.eraseP (fun e => e.rx = rx) })
      if e.spare < 18 then switchLane b p e
      else if (laneGet b p rx e.old).st = 1 then withdraw b p rx e.old (e.st.getD 5)
      else b
  | none => b

/-- A lane loses symbol lock (R329, R336): a withdrawal of it that was announced is settled thereby. -/
def lossOfLock (p k : Nat) (b : Block) : Block :=
  let x := laneGet b p true k
  let b := laneMod b p true k (fun x => { x with locked := false })
  if x.st = 1 then
    dropLane (lpMod b p (fun y => { y with bounds := y.bounds.filter (fun e => !(e.rx && decide (e.old = k) && decide (e.spare = 18))) })) p k
  else if x.st = 3 then spareFails b p k
  else b

/-! ### Calibration (R331 to R334) -/

/-- Is there a free spare other than the wavelength in a direction where it is in service or training? -/
def calSpare (b : Block) (p : Nat) (rx : Bool) (k : Nat) : Bool :=
  let st := (laneGet b p rx k).st
  if st = 1 ∨ st = 3 then waves.any (fun s => decide (s ≠ k) && decide ((laneGet b p rx s).st = 2)) else true

/-- A wavelength is to calibrate: in service it migrates away, the transmit direction's by the far end's claim; a migration onto it goes
to another spare; otherwise its lanes are calibrating at once (R332 steps 1 and 2). -/
def calLeave (b : Block) (p k : Nat) (far : Bool) : Block :=
  let t := (laneGet b p false k).st
  let r := (laneGet b p true k).st
  let b := if t = 1 then b else if t = 3 then txSpareGone b p k 6 else laneMod b p false k (fun x => { x with st := 6 })
  let b := if r = 1 then b else if r = 3 then spareGone b p k 6 false else laneMod b p true k (fun x => { x with st := 6 })
  let b := [false, true].foldl (fun b rx => laneMod b p rx k (fun x => { x with
    dead := false, testing := far && decide (x.st = 6) })) b
  if r = 1 then wantMigr b p k else b

/-- `CAL_REQUEST` (R331, R332 steps 1 and 2); a sleeping direction wakes first (R360). -/
def calRequest (q : Nat) (b : Block) : Block :=
  checkDesc b q 0x20 (fun b d =>
    let p := fld d 64 5
    let k := dfield d 0x09 1
    if (portLinks b p).all (fun l => decide ((lpGet b l).st ≠ 2)) ∨ (!roleServes b ∧ pairPort b ≠ some p) then finishDesc b q d 0x0104 0 0
    else if portRouted b p || (opGet b p).cal.isSome || !calSpare b p false k || !calSpare b p true k then
      finishDesc b q d 0x0301 0 0
    else
      let b := opMod (openDesc b q) p (fun o => { o with cal := some ⟨q, dCookie d, k, b.time, false⟩ })
      calLeave (sendMsg (wakeNow b p) p (.away k true)) p k false)

/-- A calibrated lane of a direction: a spare where it is admitted, otherwise failed; one whose wavelength is dark stays so (R310, R332
step 5). -/
def calLane (b : Block) (p : Nat) (rx : Bool) (k : Nat) (ok : Bool) (m : MarginRun) : Block :=
  let r := marginResult m.errs
  laneMod b p rx k (fun x =>
    if x.st = 0 then x
    else if ok && decide (6 ≤ r) then
      { x.tested r m.fom0 with st := 2, locked := true, mislocks := 0, dead := false, failed := false }
    else { x.tested r m.fom0 with st := 5, locked := false, dead := !ok, failed := true })

/-- A calibration ends (R332 steps 3 to 6, R333): once its lanes have left service. -/
def calDone (p : Nat) (fail : CalFail) (tx rx : MarginRun) (b : Block) : Block :=
  match (opGet b p).cal with
  | none => b
  | some c =>
    let t := laneGet b p false c.wave
    let r := laneGet b p true c.wave
    if t.st = 1 ∨ t.st = 3 ∨ r.st = 1 ∨ r.st = 3 then b
    else
      let tOk := !fail.tx && !t.dead
      let rOk := !fail.rx && !r.dead
      let b := calLane (calLane b p false c.wave tOk tx) p true c.wave rOk rx
      let res := if !tOk || !rOk then 2
        else if (laneGet b p false c.wave).st = 2 ∧ (laneGet b p true c.wave).st = 2 then 0 else 1
      nextMigr (calEnd b p res (marginResult tx.errs).toNat (marginResult rx.errs).toNat) p

/-! ### `OE_CTRL` (R325, R339) -/

/-- Copies an engine's heater codes into the staged settings. -/
def snapshot (b : Block) (n : Nat) : Block :=
  optMod b (fun o => { o with
    snap := (List.range 576).foldl (fun m i => tput 0 m (576 * n + i) (tget LoopS.init o.loops (576 * n + i)).drive) o.snap,
    held := o.held.filter (fun m => m ≠ n) ++ [n] })

/-- A write to `OE_CTRL` of an engine. -/
def oeCtrl (n : Nat) (w : Word) (b : Block) : Block :=
  if !writeServed b then b
  else
    let b := regStore b (engBase n) (engBase n) w
    if !actServed b then b
    else
      let b := if bit w 2 then snapshot b n else b
      if bit w 1 && decide (fld w 24 8 = 0x4F) then resetEngine b n else b

/-! ### Meanings -/

/-- `CAL_REQUEST` (R331). -/
def execCalRequest (q : Fin 1024) (s : State) : Host.Outcome State Fault Refusal := onBlk (calRequest q.val) s

/-- `CAL_DONE` (R332). -/
def execCalDone (p : Fin 32) (fail : CalFail) (tx rx : MarginRun) (s : State) : Host.Outcome State Fault Refusal :=
  onBlk (calDone p.val fail tx rx) s

/-- `PILOT_TONE_WINDOW` (R310). -/
def execPilotToneWindow (n : Fin 8) (f : Fin 2) (tones : List (Option Nat)) (wrong : List Nat) (s : State) :
    Host.Outcome State Fault Refusal := onBlk (pilotWindow n.val f.val tones wrong) s

/-- `LASER_POWER_MEASURE` (R311). -/
def execLaserPowerMeasure (n : Fin 8) (f : Fin 2) (power : List (Option Int)) (s : State) :
    Host.Outcome State Fault Refusal := onBlk (powerMeasure n.val f.val power) s

/-- `SPARE_STAT_POLL` (R313). -/
def execSpareStatPoll (k : Fin 18) (answers : List (Option (List Byte))) (s : State) : Host.Outcome State Fault Refusal :=
  onBlk (sparePoll k.val answers) s

/-- `LASER_SIDEBAND_TRANSACTION` (R312). -/
def execLaserSidebandTransaction (cmd arg : Byte) (answers : List (Option (List Byte))) (s : State) :
    Host.Outcome State Fault Refusal := onBlk (sideband cmd arg answers) s

/-- `LOOP_UPDATE` (R316). -/
def execLoopUpdate (n : Fin 8) (loops : List LoopSample) (s : State) : Host.Outcome State Fault Refusal :=
  onBlk (loopUpdates n.val loops) s

/-- `LOOP_LIMIT` (R317). -/
def execLoopLimit (n : Fin 8) (loop : Fin 576) (s : State) : Host.Outcome State Fault Refusal :=
  onBlk (loopLimit n.val loop.val) s

/-- `RING_SWEEP_DONE` (R318). -/
def execRingSweepDone (p : Fin 32) (rx : Bool) (k : Fin 18) (locked : Bool) (s : State) :
    Host.Outcome State Fault Refusal := onBlk (sweepDone p.val rx k.val locked) s

/-- `PORT_START` (R322). -/
def execPortStart (p : Fin 32) (s : State) : Host.Outcome State Fault Refusal := onBlk (portStart p.val) s

/-- `PORT_START_TIMEOUT` (R322). -/
def execPortStartTimeout (p : Fin 32) (s : State) : Host.Outcome State Fault Refusal := onBlk (startTimeout p.val) s

/-- `MARGIN_TEST_DONE` (R323). -/
def execMarginTestDone (p : Fin 32) (rx : Bool) (k : Fin 18) (errs : List Nat) (fom0 : Int) (s : State) :
    Host.Outcome State Fault Refusal := onBlk (marginDone p.val rx k.val errs fom0) s

/-- `LIVE_MARGIN_ESTIMATE` (R327). -/
def execLiveMarginEstimate (p : Fin 32) (k : Fin 18) (fom : Int) (s : State) : Host.Outcome State Fault Refusal :=
  onBlk (marginEstimate p.val k.val fom) s

/-- `MIGRATION_REQUEST` (R328). -/
def execMigrationRequest (p : Fin 32) (from_ : MigrFrom) (spare : Fin 18) (s : State) : Host.Outcome State Fault Refusal :=
  onBlk (migrationRequest p.val from_.old.val spare.val from_.pos.val) s

/-- `SPARE_TRAINING_DONE` (R328). -/
def execSpareTrainingDone (p : Fin 32) (spare : Fin 18) (errs : Nat) (fom : Int) (s : State) :
    Host.Outcome State Fault Refusal := onBlk (trainingDone p.val spare.val errs fom) s

/-- `FLIT_BOUNDARY_SWITCH` (R354). -/
def execFlitBoundarySwitch (p : Fin 32) (rx : Bool) (s : State) : Host.Outcome State Fault Refusal :=
  onBlk (boundarySwitch p.val rx) s

/-- `LOSS_OF_LOCK` (R329). -/
def execLossOfLock (p : Fin 32) (k : Fin 18) (s : State) : Host.Outcome State Fault Refusal := onBlk (lossOfLock p.val k.val) s

/-- `OE_RESET` (R325). -/
def execOeReset (n : Fin 8) (w : Word) (s : State) : Host.Outcome State Fault Refusal := onBlk (oeCtrl n.val w) s

/-- `CAL_SNAPSHOT` (R339). -/
def execCalSnapshot (n : Fin 8) (w : Word) (s : State) : Host.Outcome State Fault Refusal := onBlk (oeCtrl n.val w) s

end Sys2Proof.Machine
end

