-- ==== Sys2Proof/Machine/Link.lean ====
section
/-! DEFINITION. The Guica link: receiving flits, acknowledgement, replay and credit, control messages, training, taking
a port down, sleep, adaptation and the die-to-die lanes (R341 to R363). -/

namespace Sys2Proof.Machine

/-! ### Packets out of flits (R368, R369, R379) -/

/-- Cuts the packets that are complete off a channel's bytes; a header of type 0 makes the rest of the flit padding. -/
def cutPackets : Nat → List Byte → List RawPkt × List Byte
  | 0, l => ([], l)
  | n + 1, l =>
    if l.length < 2 ∨ leAt l 0 2 / 4096 = 0 then ([], [])
    else if l.length < 6 ∨ l.length < 16 + leAt l 4 2 % 2048 then ([], l)
    else
      let k := 16 + leAt l 4 2 % 2048
      let r := cutPackets n (l.drop k)
      (⟨l.take k⟩ :: r.1, r.2)

/-- The packet with its hop taken, and a fresh `ECRC`, which covers `HOPS`. -/
def RawPkt.hop (k : RawPkt) : List Byte :=
  let head := k.bytes.take 2 ++ bytesOf 2 (leAt k.bytes 2 2 + 4096) ++ (k.bytes.drop 4).take 8
  head ++ bytesOf 4 (crc32c (head ++ k.bytes.drop 16)).toNat ++ k.bytes.drop 16

/-- The fabric state of a port, which for a routed port is that of its links (R371). -/
def portFabric (b : Block) (p : Nat) : Nat :=
  if portRouted b p then (if (portLinks b p).any (fun l => decide ((fpGet b l).st = 2)) then 2 else 0) else (fpGet b p).st

/-- The link by which a packet that came in on a link is forwarded: none for a packet of this module or its neighbour, and for one that
is discarded (R369, R379). -/
def forwardLink (b : Block) (l : Nat) (vc : Bool) (k : RawPkt) : Option Nat :=
  if (k.type = 7 ∨ k.type = 8) ∧ b.fab.node ≠ some k.dst ∧ k.hops ≠ 15 then nextHop b vc (portOf l) k.src k.dst k.flow k.retry else none

/-- A packet has arrived on a link: one for this module waits for its command, another is forwarded (R369, R371, R379). -/
def arrive (l : Nat) (vc : Bool) (b : Block) (k : RawPkt) : Block :=
  if !carries (fpGet b l).st k.type then b
  else if (k.type = 7 ∨ k.type = 8) ∧ b.fab.node ≠ some k.dst then
    if k.hops = 15 then raise b 0x3A5 corrected 0 0 0 0 .none
    else
      match forwardLink b l vc k with
      | some o => linkSend b o vc k.hop
      | none => noRoute b
  else if k.ok then fabMod b (fun f => { f with rxq := f.rxq ++ [(l, k)] })
  else regCount b 0x30030C 0 32 1

/-- A data flit's payload leaves its receive buffer: its packets arrive, and its credit is owed (R351, R368). -/
def consume (b : Block) (l : Nat) (vc : Bool) (payload : List Byte) : Block :=
  let x := lpGet b l
  let r := cutPackets 241 ((if vc then x.partRsp else x.partReq) ++ payload)
  let x := if vc then { x with partRsp := r.2, usedRsp := x.usedRsp + 1, owedRsp := x.owedRsp + 1 }
    else { x with partReq := r.2, usedReq := x.usedReq + 1, owedReq := x.owedReq + 1 }
  r.1.foldl (arrive l vc) (lpPut b l x)

/-- The receive buffer of a channel (R351). -/
def LPort.buf (x : LPort) (vc : Bool) : List (List Byte) := if vc then x.bufRsp else x.bufReq

/-- Can the fabric layer take a payload: does nothing of its channel wait at the links that its packets are forwarded by (R351,
log 128)? -/
def canLeave (b : Block) (l : Nat) (vc : Bool) (payload : List Byte) : Bool :=
  let x := lpGet b l
  (cutPackets 241 ((if vc then x.partRsp else x.partReq) ++ payload)).1.all (fun k =>
    match forwardLink b l vc k with
    | some o => (lpGet b o).txq.all (fun e => decide (e.vc ≠ vc))
    | none => true)

/-- The flits of a channel's receive buffer leave it, oldest first, as far as the fabric layer takes them. -/
def emptyBuf (l : Nat) (vc : Bool) : Nat → Block → Block
  | 0, b => b
  | n + 1, b =>
    match (lpGet b l).buf vc with
    | [] => b
    | d :: r =>
      if canLeave b l vc d then
        emptyBuf l vc n (consume (lpMod b l (fun x => if vc then { x with bufRsp := r } else { x with bufReq := r })) l vc d)
      else b

/-- What the receive buffers of a link hold goes to the fabric layer, as far as it takes it. -/
def emptyBufs (b : Block) (l : Nat) : Block := emptyBuf l true 512 (emptyBuf l false 512 b)

/-! ### Acknowledgement and credit (R347, R348, R351) -/

/-- The credits of a header are taken (R351). -/
def takeCredit (h : Dword) (x : LPort) : LPort :=
  let c := fld h 29 10
  if bit h 28 then { x with credRsp := x.credRsp + (c + 1024 - x.seenRsp) % 1024, seenRsp := c }
  else { x with credReq := x.credReq + (c + 1024 - x.seenReq) % 1024, seenReq := c }

/-- The acknowledgement of a header is taken: the flits up to it leave the replay buffer; one that names an earlier flit releases
nothing; none, where it names a sequence that has not been sent (R348, R356). -/
def takeAck (h : Dword) (x : LPort) : Option LPort :=
  if !bit h 15 then some x
  else
    let d := (x.txNext + 4096 - 1 - fld h 16 12) % 4096
    let u := x.replay.length
    if d < u then some { x with replay := x.replay.drop (u - d), expiries := 0 }
    else if d < x.sent then some x
    else none

/-- Sends what a link owes for the flits it has taken: the counts of a channel after 32, and the acknowledgement that its mode asks for
(R348, R351). -/
def settleOwed (b : Block) (l : Nat) : Block :=
  let b := if 32 ≤ (lpGet b l).owedReq then carry b l false else b
  let b := if 32 ≤ (lpGet b l).owedRsp then carry b l true else b
  let x := lpGet b l
  if 0 < x.owed ∧ (!x.coalesced ∨ 64 ≤ x.owed) then answer b l else b

/-- A data flit arrives (R347); one that finds its channel's buffer full takes the link down (R356). -/
def takeData (b : Block) (l : Nat) (h : Dword) (payload : List Byte) : Block :=
  let x := lpGet b l
  let vc := bit h 12
  let d := (fld h 0 12 + 4096 - x.rxNext) % 4096
  if d = 0 then
    if 512 ≤ (x.buf vc).length then downPort b l 6
    else
      let x := { x with rxNext := (x.rxNext + 1) % 4096, rxAny := true, owed := x.owed + 1 }
      let x := if vc then { x with bufRsp := x.bufRsp ++ [payload] } else { x with bufReq := x.bufReq ++ [payload] }
      settleOwed (emptyBuf l vc 512 (lpPut b l x)) l
  else if 2049 ≤ d then answer (lpPut b l { x with dup := true }) l
  else b

/-! ### Sleep (R358 to R360) -/

/-- The conditions of light sleep beside the idle time (R359). -/
def sleepReady (b : Block) (l : Nat) : Bool :=
  let x := lpGet b l
  decide (x.st = 2) && bit (regGet b (linkBase (portOf l))) 3 && decide (x.txSleep = 0) && decide (x.txq = []) && decide (x.ctl = [])
    && decide (x.echoes = []) && decide (x.replay = []) && (x.coalesced || decide (x.owed = 0)) && !x.dup && decide (x.owedReq = 0)
    && decide (x.owedRsp = 0)

/-- May a transmit direction go to deep sleep: permitted, and no reservation on its port; never on the pair port (R359, R393)? -/
def deepReady (b : Block) (l : Nat) : Bool :=
  bit (regGet b (linkBase (portOf l))) 4 && decide (resvLoad b l = 0) && decide (pairPort b ≠ some l)

/-- Has a direction had neither data nor control flits to send for `LIGHT_IDLE`, in units of 100 ns (R359, R365)? -/
def idleLong (b : Block) (l : Nat) : Bool :=
  decide ((lpGet b l).busyAt + 100 * regFld b (linkBase (portOf l)) 8 8 ≤ b.time)

/-- Where the idle time has passed, the sleep notice goes out, and its echo puts the direction to sleep (R359). -/
def lightSleep (l : Nat) (b : Block) : Block :=
  if sleepReady b l && idleLong b l then
    let s := (lpGet b l).ctlNext
    let deep := if deepReady b l then some (regFld b (linkBase (portOf l)) 16 16) else none
    sendMsg (lpMod b l (fun x => { x with sleepSeq := some s })) l (.sleep deep)
  else b

/-- Has light sleep of the transmit direction lasted for `DEEP_IDLE`, in µs (R359, R365)? -/
def lightLong (b : Block) (l : Nat) : Bool :=
  decide ((lpGet b l).txSince + 1000 * regFld b (linkBase (portOf l)) 16 16 ≤ b.time)

/-- Where light sleep has lasted, the transmit direction goes to deep sleep if it may, and the receive direction follows its far end,
whose notice said when (R359, log 130). -/
def deepSleep (l : Nat) (b : Block) : Block :=
  let b := if (lpGet b l).txSleep = 1 ∧ deepReady b l ∧ lightLong b l then lpMod b l (fun x => { x with txSleep := 2 }) else b
  let x := lpGet b l
  if x.rxSleep = 1 ∧ x.farDeep.any (fun d => decide (x.rxSince + 1000 * d ≤ b.time)) then lpPut b l { x with rxSleep := 2 } else b

/-- Has a sleeping direction something to send, an acknowledgement or a credit to carry, or a reservation on its port in deep sleep
(R358, R359)? -/
def mustWake (b : Block) (l : Nat) : Bool :=
  let x := lpGet b l
  decide (x.txSleep ≠ 0) && (decide (x.txq ≠ []) || decide (x.ctl ≠ []) || decide (x.echoes ≠ []) || x.dup
    || (decide (0 < x.owed) && (!x.coalesced || decide (64 ≤ x.owed))) || decide (0 < x.owedReq) || decide (0 < x.owedRsp)
    || (decide (x.txSleep = 2) && decide (0 < resvLoad b l)))

/-- A direction wakes where it must. -/
def wakeDir (l : Nat) (b : Block) : Block := if mustWake b l then wakeNow b l else b

/-- A re-track window opens in deep sleep: for 100 µs the bias is on and the loops of the direction track (R358, R360). -/
def retrack (l : Nat) (b : Block) : Block :=
  let x := lpGet b l
  if x.rxSleep = 2 ∨ x.txSleep = 2 then lpPut b l { x with trackEnd := b.time + 100000 } else b

/-! ### Control messages (R352) -/

/-- The far end's map of the direction that this module transmits in (R322 step 5). -/
def takeMap (b : Block) (p : Nat) (lanes : List Nat) : Block :=
  let b := waves.foldl (fun b k => laneMod b p false k (fun x => if x.st = 1 then { x with st := 2 } else x)) b
  remap ((lanes.zipIdx.filter (fun e => decide (e.1 < 18) && decide (e.2 < 16))).foldl (fun b e =>
    laneMod b p false e.1 (fun x => { x with st := 1, pos := e.2, locked := true })) b) p

/-- The far end has announced a boundary of one of its directions: it waits for its count, in place of an earlier one of its lane.  With
the boundary of a migration its receiver reports that the spare has passed, and its margin: the position's data goes out on both
wavelengths (R319, R328 steps 4 and 5, R352). -/
def takeBoundary (b : Block) (p : Nat) (rx : Bool) (old spare n live : Nat) : Block :=
  let b := lpMod b p (fun x => { x with
    bounds := x.bounds.filter (fun e => !(decide (e.rx = !rx) && decide (e.old = old))) ++ [⟨!rx, old, spare, n, none, none⟩] })
  if !rx ∨ 18 ≤ spare then b
  else
    let b := laneMod b p false spare (fun x => { x with live := live })
    let b := opMod b p (fun o => { o with tx := o.tx.map (fun (m : Migr) => { m with passed := true }) })
    if old < 18 ∧ (laneGet b p false old).st = 1 then lpMod b p (fun x => { x with twin := some (old, spare) }) else b

/-- The far end says that a lane of one of its directions has become a spare (R318, R330). -/
def takeSpare (b : Block) (p : Nat) (rx : Bool) (k : Nat) : Block :=
  let x := laneGet b p (!rx) k
  if x.dead ∨ x.st = 0 ∨ x.st = 1 ∨ x.st = 3 ∨ x.st = 6 ∨ 18 ≤ k then b
  else
    let b := lanePut b p (!rx) k { x with st := 2, locked := true, testing := false, failed := false }
    if rx then b else nextMigr b p

/-- The far end's transmitter asks that a lane's position move away, or that its wavelength be calibrated (R317, R332). -/
def takeAway (b : Block) (p k : Nat) (cal : Bool) : Block :=
  if 18 ≤ k then b
  else if cal then calLeave (opMod b p (fun o => { o with farCal := some k })) p k true
  else if (laneGet b p true k).st = 1 then wantMigr b p k else b

/-- One control message takes effect; those of lanes and positions are a port's own, not a routed link's.  The repeats of a down notice
find a link that starts again, which they do not concern. -/
def takeMsg (l : Nat) (b : Block) (m : CtlMsg) : Block :=
  match m with
  | .laneMap lanes => if (lpGet b l).st = 1 ∧ l < 32 then takeMap b l lanes else b
  | .migrate old spare pos => if l < 32 then migrationRequest l old spare pos b else b
  | .away k cal => if l < 32 then takeAway b l k cal else b
  | .boundary rx old spare n live => if l < 32 then takeBoundary b l rx old spare n live else b
  | .spare rx k => if l < 32 then takeSpare b l rx k else b
  | .withdraw k => if l < 32 ∧ (laneGet b l false k).st = 1 then withdraw b l false k 5 else b
  | .sleep deep => lpMod b l (fun x => { x with rxSleep := 1, farDeep := deep, rxSince := b.time })
  | .wake => lpMod b l (fun x => { x with rxSleep := 0 })
  | .down => if (lpGet b l).st = 2 ∨ (lpGet b l).rxMap ≠ [] then downPort b l 4 else b
  | .rttEcho => b
  | .params p => lpMod b l (fun x => { x with far := some p })

/-- An echo: its message is repeated no more, and an echoed sleep notice puts the direction to sleep where it still may (R352,
R359). -/
def takeEcho (l : Nat) (b : Block) (s : Byte) : Block :=
  let mine := decide ((lpGet b l).sleepSeq = some s.toNat)
  let b := lpMod b l (fun x => { x with
    ctl := x.ctl.filter (fun e => decide (e.1 ≠ s.toNat)), sleepSeq := if mine then none else x.sleepSeq })
  if mine && sleepReady b l then lpMod b l (fun x => { x with txSleep := 1, txSince := b.time }) else b

/-- A control flit arrives: new messages take effect, and all are echoed in the next control flit, once the direction has lanes; a
sleeping direction wakes for it (R352, R359). -/
def takeCtl (b : Block) (l : Nat) (f : Flit) : Block :=
  let b := f.echoes.foldl (takeEcho l) b
  let b := (f.ctl.take 8).foldl (fun b e =>
    if (lpGet b l).ctlSeen.contains e.1.toNat then b
    else takeMsg l (lpMod b l (fun x => { x with ctlSeen := (e.1.toNat :: x.ctlSeen).take 64 })) e.2) b
  if f.ctl = [] ∨ (lpGet b l).txMap = [] then b
  else
    let b := lpMod b l (fun x => { x with echoes := x.echoes ++ (f.ctl.take 8).map (·.1) })
    if (lpGet b l).txSleep = 0 then sendCtls b l [] else b

/-! ### Receiving a flit (R343, R347) -/

/-- Does a flit pass R343? -/
def flitOk (x : LPort) (f : Flit) : Bool :=
  decide (f.payload.length = 240) && decide (crc64 (bytesOf 8 f.header.toNat ++ f.payload) = f.crc)
    && decide (fld f.header 40 8 = x.rxEpoch) && decide (fld f.header 13 2 ≠ 3)

/-- A flit arrives on a link; it wakes a receive direction that sleeps (R358). -/
def flitIn (l : Nat) (f : Flit) (b : Block) : Block :=
  let x := lpGet b l
  if x.st = 0 then b
  else if !flitOk x f then regCount b (linkBase (portOf l) + 0x24) 0 32 1
  else
    let x := { x with rxFlits := x.rxFlits + 1, rxSleep := 0, rxWoke := if x.rxSleep = 0 then x.rxWoke else b.time }
    if x.st = 1 then
      if fld f.header 13 2 = 2 then takeCtl (lpPut b l x) l f else b
    else
      match takeAck f.header (takeCredit f.header x) with
      | none => downPort (lpPut b l x) l 6
      | some x =>
        let b := lpPut b l x
        let b := if fld f.header 13 2 = 1 then takeData b l f.header f.payload
          else if fld f.header 13 2 = 2 then takeCtl b l f else b
        drain b l

/-! ### Timers (R348, R349, R351, R352, R356) -/

/-- The replay timer expires (R349); the eighth in a row takes the link down (R356). -/
def replayExpiry (l : Nat) (b : Block) : Block :=
  let x := lpGet b l
  if x.st ≠ 2 ∨ x.replay = [] then b
  else
    let x := { x with expiries := x.expiries + 1, replays := x.replays.filter (fun t => b.time ≤ t + 1000000) ++ [b.time] }
    let b := regCount (lpPut b l x) (linkBase (portOf l) + 0x20) 0 32 1
    if 8 ≤ x.expiries then downPort b l 3
    else x.replay.foldl (fun b e => sendData b l e.1 e.2.1 e.2.2) b

/-- 500 ns have passed since the oldest flit not yet acknowledged (R348); a direction that sleeps wakes for it. -/
def ackExpiry (l : Nat) (b : Block) : Block :=
  let x := lpGet b l
  if x.st = 2 ∧ x.coalesced ∧ 0 < x.owed then answer (lpPut b l { x with dup := true }) l else b

/-- A consumption's count is carried within 200 ns (R351); a direction that sleeps wakes for it. -/
def creditExpiry (l : Nat) (vc : Bool) (b : Block) : Block :=
  let x := lpGet b l
  if x.st = 2 ∧ 0 < (if vc then x.owedRsp else x.owedReq) then carry b l vc else b

/-- This module's announcement of a boundary that was not echoed 16 flits before its count (R352). -/
def lateBound (x : LPort) (s : Nat) : Option Bound :=
  x.bounds.find? (fun e => decide (e.seq = some s) && decide (e.count < (if e.rx then x.rxFlits else x.flits) + 16))

/-- An unechoed control message is repeated; the 100th repeat takes the link down; a boundary that comes too soon is withdrawn, and a
later one announced (R352). -/
def repeatMsg (l s : Nat) (b : Block) : Block :=
  let x := lpGet b l
  match x.ctl.find? (fun e => e.1 = s) with
  | none => b
  | some (_, m, n) =>
    if x.st = 0 then b
    else if 100 ≤ n + 1 then downPort b l 5
    else
      match lateBound x s with
      | some e => reannounce b l e
      | none =>
        let b := lpPut b l { x with ctl := x.ctl.map (fun e => if e.1 = s then (e.1, e.2.1, n + 1) else e) }
        if x.txSleep = 0 then sendCtl b l [(BitVec.ofNat 8 s, m)] [] else b

/-! ### Training (R350, R353, R356) -/

/-- Does a link train: it is starting, and its lanes have been selected? -/
def trains (b : Block) (l : Nat) : Bool :=
  decide ((lpGet b l).st = 1) && (if l < 32 then decide ((opGet b l).phase = 2) else decide ((lpGet b l).txMap ≠ []))

/-- Steps 1 to 5 of training: the lanes hold lock and the scramblers start from their seeds; the parameters and 16 echo messages go out
(R350, R353; log 131). -/
def trainUp (b : Block) (l : Nat) : Block :=
  let own : LinkParams := ⟨bit (regGet b (linkBase (portOf l))) 0, Fin.ofNat 4 (regFld b (linkBase (portOf l)) 1 2)⟩
  let x := lpGet b l
  let b := x.rxMap.foldl (fun b k => laneMod b (portOf l) true k (fun y => { y with locked := true })) b
  let b := { lpPut b l { x with
    coders := x.txMap.foldl (fun m k => tput Coder.init m k ⟨[], Config.laneSeed (18 * l + k) b.freeCtr, 0⟩) []
    ctlNext := (x.ctlNext + 17) % 256 } with freeCtr := b.freeCtr + 1 }
  let ms := (CtlMsg.params own :: List.replicate 16 .rttEcho).zipIdx.map (fun e => (BitVec.ofNat 8 (x.ctlNext + e.2), e.1))
  sendCtls b l ms

/-- Training ends and the link comes up (R353): the round trip is the largest that the echoes measured, rounded up to 10 ns; the far
end's parameters are what it has sent. -/
def train (l : Nat) (rtts : List Nat) (far : LinkParams) (b : Block) : Block :=
  if !trains b l then b
  else
    let p := portOf l
    let b := trainUp b l
    let x := lpGet b l
    let far := x.far.getD far
    let own := bit (regGet b (linkBase p)) 0
    let rule := regFld b (linkBase p) 1 2
    let b := lpPut b l (LPort.measure { x with
      st := 2, coalesced := own || far.coalesced, mismatch := decide (own ≠ far.coalesced), rule := rule, rateRule := decide (rule = 2),
      far := some far, rtt := cdiv (rtts.foldl max 0) 10 * 10, txNext := 0, rxNext := 0, sent := 0, rxAny := false,
      replay := [], txq := [], bufReq := [], bufRsp := [], credReq := 512, credRsp := 512, seenReq := 0, seenRsp := 0, usedReq := 0,
      usedRsp := 0, owedReq := 0, owedRsp := 0, owed := 0, dup := false, txEpoch := 0, rxEpoch := 0, flits := 0, rxFlits := 0,
      ctl := [], ctlSeen := [], expiries := 0, replays := [], partReq := [], partRsp := [], bounds := [], txSleep := 0, rxSleep := 0 })
    let b := if l < 32 then opMod b p (fun o => { o with phase := 0 }) else b
    sendHello (setReady (fpPut b l { FPort.init with st := 1, planeB := bit (regGet b 0x300000) 2 }) 5 p true) l

/-- Training has not finished within 2 ms. -/
def trainTimeout (l : Nat) (b : Block) : Block := if trains b l then downPort b l 7 else b

/-! ### Down (R356, R357, R365) -/

/-- A link is declared down: with the cause that its state shows, otherwise by a down notice (R356, R357). -/
def linkDown (l : Nat) (b : Block) : Block :=
  let x := lpGet b l
  let cause := if (engGet b (portOf l / 4)).fenced ∨ b.opt.lost.contains (fibreOf (portOf l)) then 8
    else if 8 ≤ x.expiries then 3 else if x.st = 2 ∧ x.rxMap = [] then 5 else 4
  downPort b l cause

/-- Fewer than 8 receive lanes have held lock for 20 µs (R356); a sleeping direction's lanes count as locked (R360). -/
def lockExpiry (p : Nat) (b : Block) : Block :=
  let x := lpGet b p
  if x.st = 2 ∧ !x.rateRule ∧ x.rxSleep = 0 ∧ !portRouted b p
      ∧ ((inService b p true).filter (fun k => (laneGet b p true k).locked)).length < 8 then downPort b p 1
  else b

/-- Adds to the 64-bit count of corrected symbols, saturating (R365). -/
def addCorr (b : Block) (p n : Nat) : Block :=
  let v := min (2 ^ 64 - 1) ((regGet b (linkBase p + 0x34)).toNat + 2 ^ 32 * (regGet b (linkBase p + 0x38)).toNat + n)
  regPut (regPut b (linkBase p + 0x34) (BitVec.ofNat 32 v)) (linkBase p + 0x38) (BitVec.ofNat 32 (v / 2 ^ 32))

/-- A sliding 1 ms window of the error-rate rule, that began at a device time: the counts of its codewords, and the replays in it
(R356). -/
def rateWindow (l codewords uncorrectable corr start : Nat) (b : Block) : Block :=
  let x := lpGet b l
  let p := portOf l
  let b := addCorr (regCount b (linkBase p + 0x28) 0 32 uncorrectable) p corr
  let replays := (x.replays.filter (fun t => decide (start ≤ t) && decide (t < start + 1000000))).length
  if x.st = 2 ∧ x.rateRule ∧ (codewords < uncorrectable * 100000 ∨ 64 < replays) then downPort b l 2 else b

/-- A write to `LINK_CTRL` (R365). -/
def linkCtrl (p : Nat) (w : Word) (b : Block) : Block :=
  if actServed b && bit w 0 && decide (fld w 24 8 = 0x4C) then downLinks b p 4 else b

/-! ### Adaptation (R361) -/

/-- An adaptation step: one that lowers the figure of merit by more than 0.05 dB is reverted. -/
def adapt (p k : Nat) (before after : Int) (b : Block) : Block :=
  let x := laneGet b p true k
  if !measures b (laneLink b p k) 0 ∨ (x.st ≠ 1 ∧ x.st ≠ 3) then b
  else if after + 5 < before then
    regCount (lanePut b p true k { x with fom := before }) (linkBase p + 0x30) 0 32 1
  else lanePut b p true k { x with fom := after }

/-- A lane's figure of merit has stayed below its floor, F_s - 1.0 dB, for 100 µs: it is retrained behind a spare; without one it stays
in service. -/
def floorRetrain (p k : Nat) (b : Block) : Block :=
  let x := laneGet b p true k
  if x.st = 1 ∧ x.fom < x.fs - 100 ∧ (freeSpare b p true).isSome ∧ !portRouted b p then
    wantMigr (opMod b p (fun o => { o with retrain := o.retrain ++ [k] })) p k
  else b

/-! ### Die-to-die lanes (R363) -/

/-- A die-to-die frame is checked: a parity error fences the engine (R362, R363). -/
def parity (n : Nat) (f : D2dFrame) (b : Block) : Block :=
  if parityUi f.data = f.parity then b
  else
    let b := regSet b (engBase n + 0x900) 17 1 1
    fenceEngine (raise b (0x300 + 8 * n + f.up.toNat) contained 0 0 0 0 (.engine n)) n

/-! ### Meanings -/

/-- `FLIT_RECEIVE` (R347). -/
def execFlitReceive (l : LinkNo) (f : Flit) (s : State) : Host.Outcome State Fault Refusal := onBlk (flitIn l.val f) s

/-- `REPLAY_TIMEOUT` (R349). -/
def execReplayTimeout (l : LinkNo) (s : State) : Host.Outcome State Fault Refusal := onBlk (replayExpiry l.val) s

/-- `ACK_COALESCE_TIMEOUT` (R348). -/
def execAckCoalesceTimeout (l : LinkNo) (s : State) : Host.Outcome State Fault Refusal := onBlk (ackExpiry l.val) s

/-- `CREDIT_RETURN_TIMEOUT` (R351). -/
def execCreditReturnTimeout (l : LinkNo) (vc : Bool) (s : State) : Host.Outcome State Fault Refusal :=
  onBlk (creditExpiry l.val vc) s

/-- `CONTROL_MESSAGE_REPEAT` (R352). -/
def execControlMessageRepeat (l : LinkNo) (seq : Byte) (s : State) : Host.Outcome State Fault Refusal :=
  onBlk (repeatMsg l.val seq.toNat) s

/-- `LINK_TRAINING` (R353). -/
def execLinkTraining (l : LinkNo) (rtts : List Nat) (far : LinkParams) (s : State) : Host.Outcome State Fault Refusal :=
  onBlk (train l.val rtts far) s

/-- `LINK_DOWN` (R357). -/
def execLinkDown (l : LinkNo) (s : State) : Host.Outcome State Fault Refusal := onBlk (linkDown l.val) s

/-- `LOCK_RULE_HOLD_EXPIRY` (R356). -/
def execLockRuleHoldExpiry (p : Fin 32) (s : State) : Host.Outcome State Fault Refusal := onBlk (lockExpiry p.val) s

/-- `ERROR_RATE_WINDOW` (R356). -/
def execErrorRateWindow (l : LinkNo) (codewords uncorrectable corr start : Nat) (s : State) :
    Host.Outcome State Fault Refusal := onBlk (rateWindow l.val codewords uncorrectable corr start) s

/-- `PORT_DOWN_WRITE` (R365). -/
def execPortDownWrite (p : Fin 32) (w : Word) (s : State) : Host.Outcome State Fault Refusal := onBlk (linkCtrl p.val w) s

/-- `LIGHT_SLEEP_ENTRY` (R359). -/
def execLightSleepEntry (l : LinkNo) (s : State) : Host.Outcome State Fault Refusal := onBlk (lightSleep l.val) s

/-- `DEEP_SLEEP_ENTRY` (R359). -/
def execDeepSleepEntry (l : LinkNo) (s : State) : Host.Outcome State Fault Refusal := onBlk (deepSleep l.val) s

/-- `SLEEP_WAKE` (R358). -/
def execSleepWake (l : LinkNo) (s : State) : Host.Outcome State Fault Refusal := onBlk (wakeDir l.val) s

/-- `DEEP_SLEEP_RETRACK` (R358). -/
def execDeepSleepRetrack (l : LinkNo) (s : State) : Host.Outcome State Fault Refusal := onBlk (retrack l.val) s

/-- `ADAPTATION_STEP` (R361). -/
def execAdaptationStep (p : Fin 32) (k : Fin 18) (before after : Int) (s : State) : Host.Outcome State Fault Refusal :=
  onBlk (adapt p.val k.val before after) s

/-- `LANE_FLOOR_RETRAIN` (R361). -/
def execLaneFloorRetrain (p : Fin 32) (k : Fin 18) (s : State) : Host.Outcome State Fault Refusal :=
  onBlk (floorRetrain p.val k.val) s

/-- `D2D_PARITY` (R363). -/
def execD2dParity (n : Fin 8) (f : D2dFrame) (s : State) : Host.Outcome State Fault Refusal := onBlk (parity n.val f) s

/-- `TRAINING_TIMEOUT` (R356). -/
def execTrainingTimeout (l : LinkNo) (s : State) : Host.Outcome State Fault Refusal := onBlk (trainTimeout l.val) s

end Sys2Proof.Machine
end

