-- ==== Sys2Proof/Machine/Gait.lean ====
section
/-! DEFINITION. Gaits, budgets and voltage domains: charges, headroom, raising and lowering (R206, R435 to
R442), and the regions of temperature sensors (R443).  Power is counted in 1/64 mW, so that a napping core's
share is a whole number. -/

namespace Sys2Proof.Machine

/-- B(g) in mW (R439). -/
def budget (g : Nat) : Nat :=
  match g with
  | 0 => 180 | 1 => 300 | 2 => 460 | _ => 575

/-- Set point of a level in mV (R435). -/
def setPoint (g : Nat) : Nat :=
  match g with
  | 0 => 600 | 1 => 680 | 2 => 780 | _ => 850

/-- Tenths of a core cycle in 42 ROOT periods, by running gait (R27: ÷20, ÷10, ÷7 and ÷6). -/
def tickTenths (g : Nat) : Nat :=
  match g with
  | 0 => 21 | 1 => 42 | 2 => 60 | _ => 70

/-- The gait cap of the owner policy word (R437, R484). -/
def gaitCap (b : Block) : Nat := regFld b 0x330004 3 2

/-- The paddock numbers that are not free, ascending. -/
def loadedPads (b : Block) : List Nat := (List.range 64).filter (fun p => decide ((padGet b p).st ≠ .free))

/-- Teams of a paddock. -/
def Pad.area (x : Pad) : Nat := x.env.width * x.env.height

/-- Napping cores of a paddock (R204). -/
def napsOf (b : Block) (x : Pad) : Nat :=
  (b.die.cores.filter (fun e => e.2.napping && x.has (e.1 / 64))).length

/-- A paddock's charge at gait `g` (R439). -/
def chargeAt (b : Block) (x : Pad) (g : Nat) : Nat := x.area * 64 * budget g - napsOf b x * budget g

/-- The extra charge of a raise from the running gait to `g`. -/
def extra (b : Block) (x : Pad) (g : Nat) : Nat := chargeAt b x g - chargeAt b x x.run

/-- The extra charge of a decided raise that has not taken effect (R439). -/
def pendingExtra (b : Block) (x : Pad) : Nat :=
  match x.next with
  | some g => extra b x g
  | none => 0

/-- Teams under self-test. -/
def testTeams (b : Block) : Nat :=
  (b.pwr.tests.map (fun e => if e.2.started && !e.2.hbm then e.2.width * e.2.height else 0)).sum

/-- The module budget in 0.1 W (R454). -/
def moduleBudget (b : Block) : Nat := min (regFld b 0x40000 0 16) 27140

/-- Headroom (R439). -/
def headroom (b : Block) : Int :=
  (6400 * moduleBudget b : Nat)
    - (((loadedPads b).map (fun p => chargeAt b (padGet b p) (padGet b p).run + pendingExtra b (padGet b p))).sum
        + testTeams b * 64 * budget 0 : Nat)

/-- The committed sum (R439). -/
def committedSum (b : Block) : Nat :=
  ((loadedPads b).map (fun p => (padGet b p).area * 64 * budget (padGet b p).gait)).sum

/-- Makes a change, and notes the headroom before it where it rises (R440). -/
def tracked (f : Block → Block) (b : Block) : Block :=
  let c := f b
  if headroom b < headroom c then pwrMod c (fun w => { w with heads := w.heads ++ [(b.time, headroom b)] }) else c

/-- The lowest headroom of the past 100 µs (R440). -/
def lowHead (b : Block) : Int :=
  b.pwr.heads.foldl (fun m e => if b.time ≤ e.1 + 100000 then min m e.2 else m) (headroom b)

/-! ### Domains (R435, R436) -/

/-- Strip of a column. -/
def stripOf (col : Nat) : Nat := col / 5

/-- The strips of a paddock. -/
def Pad.strips (x : Pad) : List Nat :=
  if x.st = .free then [] else
    (List.range 16).filter (fun d => decide (stripOf x.col ≤ d) && decide (d ≤ stripOf (x.col + x.env.width - 1)))

/-- The paddocks with a team in strip `d`, ascending. -/
def stripPads (b : Block) (d : Nat) : List Nat := (loadedPads b).filter (fun p => (padGet b p).strips.contains d)

/-- The level of a domain (R435). -/
def domainLevel (b : Block) (d : Nat) : Nat := ((stripPads b d).map (fun p => (padGet b p).run)).foldl max 0

/-- The level that a domain must hold: that of R435, and of every raise decided for it. -/
def domainNeed (b : Block) (d : Nat) : Nat :=
  ((stripPads b d).map (fun p => max (padGet b p).run ((padGet b p).next.getD 0))).foldl max 0

/-- Voltage domain `d`. -/
def domGet (b : Block) (d : Nat) : Domain := tget Domain.init b.pwr.domains d

/-- Replaces a voltage domain. -/
def domPut (b : Block) (d : Nat) (x : Domain) : Block := pwrMod b (fun w => { w with domains := tput Domain.init w.domains d x })

/-- Starts the ramps that the gaits in force and decided call for (R436). -/
def rampDomains (b : Block) : Block :=
  (List.range 16).foldl (fun b d =>
    let n := domainNeed b d
    let x := domGet b d
    if x.want = n then b else domPut b d { x with want := n, ramping := decide (x.level ≠ n) }) b

/-- Has every domain of a paddock finished its ramp for gait `g`? -/
def rampsDone (b : Block) (x : Pad) (g : Nat) : Bool :=
  x.strips.all (fun d => !(domGet b d).ramping && decide (g ≤ (domGet b d).level))

/-- A decided gait takes effect at a step boundary, after its domains have ramped (R442). -/
def applyGait (p : Nat) (b : Block) : Block :=
  let x := padGet b p
  match x.next with
  | none => b
  | some g =>
    if rampsDone b x g then rampDomains (padPut b p { x with run := g, next := none })
    else b

/-- Decided gaits of paddocks that run no step take effect at once (R442). -/
def applyIdle (b : Block) : Block :=
  (loadedPads b).foldl (fun b p => if (padGet b p).step = none then applyGait p b else b) b

/-- A protective lowering to gait `g` takes effect at once, and drops a decided raise (R442). -/
def lowerPad (b : Block) (p g : Nat) : Block :=
  let x := padGet b p
  if g < x.run ∨ x.next ≠ none then rampDomains (padPut b p { x with run := min x.run g, next := none }) else b

/-! ### Holds (R440, R445, R449) -/

/-- The strips of a sensor's region (R443); none for a sensor of an engine. -/
def sensorStrips (m : Nat) : List Nat :=
  if m < 240 then [m / 15]
  else if m < 480 then
    let k := (m - 240) % 60 % 4
    [4 * k, 4 * k + 1, 4 * k + 2, 4 * k + 3]
  else if m < 512 then [(m - 480) / 2]
  else []

/-- Does a paddock answer for a sensor's region? -/
def inRegion (x : Pad) (m : Nat) : Bool := x.strips.any (fun d => (sensorStrips m).contains d)

/-- Does a throttle hold a paddock? -/
def throttled (b : Block) (x : Pad) : Bool := b.pwr.throttle.any (inRegion x)

/-- Does a cause in force lie on a paddock (R449)? -/
def causeOn (x : Pad) (c : Cause) : Bool := decide (3 ≤ c.code) || inRegion x c.sensor

/-- Does an emergency force a paddock to walk? -/
def forcedWalk (b : Block) (x : Pad) : Bool := b.pwr.causes.any (causeOn x)

/-- Lowers every paddock that a throttle or an emergency holds (R445, R449). -/
def protect (b : Block) : Block :=
  tracked (fun b => (loadedPads b).foldl (fun b p =>
    let x := padGet b p
    if forcedWalk b x then lowerPad b p 0
    else if throttled b x then lowerPad b p (min x.run x.gait)
    else b) b) b

/-- A fence or the end of the force: `HOLD` of a paddock (R454). -/
def gaitHold (b : Block) (x : Pad) : Nat :=
  if x.target ≤ x.run then 0
  else if forcedWalk b x then 3
  else if throttled b x then 2
  else if gaitCap b ≤ x.run then 4
  else if x.next.isSome then 5
  else 1

/-! ### The governor (R440, R441) -/

/-- The lowest of a list by a measure, the first among equals. -/
def firstLow (f : Nat → Nat) : List Nat → Option Nat
  | [] => none
  | p :: r =>
    match firstLow f r with
    | some q => if f p ≤ f q then some p else some q
    | none => some p

/-- The highest of a list by a measure, the first among equals. -/
def firstHigh (f : Nat → Nat) : List Nat → Option Nat
  | [] => none
  | p :: r =>
    match firstHigh f r with
    | some q => if f q ≤ f p then some p else some q
    | none => some p

/-- One reclaim: the most recently decided raise that has not taken effect is cancelled, otherwise the paddock
above its committed gait that was raised most recently goes one step down. -/
def reclaimOne (b : Block) : Block :=
  let order := fun p => (padGet b p).raised
  match firstHigh order ((loadedPads b).filter (fun p => match (padGet b p).next with
      | some g => decide ((padGet b p).run < g)
      | none => false)) with
  | some p => rampDomains (padMod b p (fun x => { x with next := none }))
  | none =>
    match firstHigh order ((loadedPads b).filter (fun p => decide ((padGet b p).gait < (padGet b p).run))) with
    | some p => lowerPad b p ((padGet b p).run - 1)
    | none => b

/-- Reclaims until headroom is at least 0: at most four changes a paddock. -/
def reclaimGo : Nat → Block → Block
  | 0, b => b
  | n + 1, b => if headroom b < 0 then reclaimGo n (reclaimOne b) else b

/-- Reclaims lent budget (R441). -/
def reclaim (b : Block) : Block := tracked (reclaimGo 256) b

/-- The paddocks the governor may raise (R440); a paddock below its committed gait goes up the same way. -/
def raisable (b : Block) : List Nat :=
  (loadedPads b).filter (fun p =>
    let x := padGet b p
    decide (x.run < x.target) && x.next.isNone && !forcedWalk b x && !throttled b x && decide (x.run < gaitCap b))

/-- The governor's raise: the first paddock, in order of its last raise, whose next gait fits. -/
def governorRaise (b : Block) : List Nat → Nat → Block
  | _, 0 => b
  | l, n + 1 =>
    match firstLow (fun p => (padGet b p).raised) l with
    | none => b
    | some p =>
      let x := padGet b p
      if (extra b x (x.run + 1) : Int) ≤ lowHead b then
        let b := pwrMod b (fun w => { w with stamp := w.stamp + 1 })
        let b := rampDomains (padPut b p { x with next := some (x.run + 1), raised := b.pwr.stamp })
        if (padGet b p).step = none then applyGait p b else b
      else governorRaise b (l.filter (fun q => q ≠ p)) n

/-- A lowering that comes from a reduced target, at the paddock's step boundary (R442). -/
def lowerToTarget (b : Block) (p : Nat) : Block :=
  let x := padGet b p
  if max x.target x.gait < x.run ∨ (x.next.any (fun g => decide (x.target < g))) then
    tracked (fun b => lowerPad b p (max x.target x.gait)) b
  else b

/-- One governor period. -/
def governor (b : Block) : Block :=
  let b := protect b
  let b := (loadedPads b).foldl (fun b p => if (padGet b p).step = none then lowerToTarget b p else b) b
  let b := reclaim b
  let b := governorRaise b (raisable b) 64
  pwrMod b (fun w => { w with heads := w.heads.filter (fun e => decide (b.time ≤ e.1 + 100000)) })

end Sys2Proof.Machine
end

