-- ==== Sys2Proof/Machine/Nap.lean ====
section
/-! DEFINITION. The scrubber, naps and sluices (R83, R84, R204, R432, R433). -/

namespace Sys2Proof.Machine

/-- One scrub access: the next line is read through the port; cisterns outside every paddock are not scrubbed
(R83, R84). -/
def scrub (c : CoreId) (b : Block) : Block :=
  let k := coreKey c
  match padOf b (teamKey c.team) with
  | none => b
  | some _ =>
    let l := (coreGet b k).scrub
    let b := coreMod b k (fun y => { y with scrub := (l + 1) % 640 })
    (portRead b k l).1

/-- May a core nap: each of its threads has waited or been parked for the threshold that its wait began with, in device time, and no
remote request is outstanding (R204, R207)? -/
def canNap (b : Block) (k : Nat) : Bool :=
  bit (regGet b 0x30400) 0 && (padOf b (k / 64)).isSome && decide ((coreGet b k).outstanding = 0)
    && (List.range 4).all (fun t =>
        let x := thrGet b (4 * k + t)
        (decide (x.st = .waiting) || decide (x.st = .parked)) && decide (x.idleAt + x.napAfter ≤ b.time))

/-- The nap threshold of a core has passed: it naps (R204, R206). -/
def nap (c : CoreId) (b : Block) : Block :=
  let k := coreKey c
  if canNap b k then tracked (fun b => coreMod b k (fun y => { y with napping := true })) b else b

/-- Has a pump's queue been empty for 64 core cycles, in device time at the running gait (R432)?  The clock of a team of no paddock is
gated whole. -/
def pumpRests (b : Block) (k : Nat) : Bool :=
  let u := pumpGet b k
  decide (u.q = []) && (match padOf b k with
    | some p => decide (50 * 64 ≤ tickTenths (padGet b p).run * (b.time - u.idleAt))
    | none => true)

/-- A pump's queue has been empty for 64 core cycles: it is sluiced (R432). -/
def pumpSluice (k : TeamId) (b : Block) : Block :=
  let u := pumpGet b (teamKey k)
  if pumpRests b (teamKey k) then pumpPut b (teamKey k) { u with sluiced := true } else b

/-- Is a team free of paddocks and self-tests, so that its sluice closes (R29, R432)? -/
def teamIdle (b : Block) (k : Nat) : Bool :=
  (padOf b k).isNone && b.pwr.tests.all (fun e => e.2.hbm || !(rectTeams e.2.col e.2.row e.2.width e.2.height).contains k)

/-- Does a sluice's closing condition hold while the sluice is open? -/
def sluiceWaits (b : Block) (u : Sluice) : Bool :=
  match u with
  | .core c => canNap b (coreKey c) && !(coreGet b (coreKey c)).napping
  | .team t => teamIdle b (teamKey t)
  | .pump t => pumpRests b (teamKey t) && !(pumpGet b (teamKey t)).sluiced

/-- A sluice that waits to close finds its block busy for 256 cycles: it stays open (R433). -/
def sluiceTimeout (u : Sluice) (b : Block) : Block :=
  if sluiceWaits b u then raise (regCount b 0x30004 0 16 1) 0x013 corrected 0 0 0 0 .none else b

/-- `SCRUB_REQUEST` (R83). -/
def execScrubRequest (c : CoreId) (s : State) : Host.Outcome State Fault Refusal := onBlk (scrub c) s

/-- `CORE_NAP` (R204). -/
def execCoreNap (c : CoreId) (s : State) : Host.Outcome State Fault Refusal := onBlk (nap c) s

/-- `PUMP_SLUICE_CLOSE` (R432). -/
def execPumpSluiceClose (k : TeamId) (s : State) : Host.Outcome State Fault Refusal := onBlk (pumpSluice k) s

/-- `SLUICE_TIMEOUT` (R433). -/
def execSluiceTimeout (u : Sluice) (s : State) : Host.Outcome State Fault Refusal := onBlk (sluiceTimeout u) s

end Sys2Proof.Machine
end

