-- ==== Sys2Proof/Machine/Image.lean ====
section
/-! DEFINITION. The image file: header, envelope, section table and sections, and the checks of R218 and R219
(R213 to R219, R185, R186).  An image is read through a function from offset and length to bytes. -/

namespace Sys2Proof.Machine

/-- Reads bytes of an image at an offset. -/
abbrev ImgRead := Nat → Nat → List Byte

/-- A little-endian field of an image. -/
def ImgRead.at (r : ImgRead) (off n : Nat) : Nat := leNat (r off n)

/-- The resource envelope (R214). -/
def envOf (r : ImgRead) : Env :=
  { width := r.at 0x40 1, height := r.at 0x41 1, role := r.at 0x42 2, cisternBytes := r.at 0x44 4,
    semCount := r.at 0x48 2, barrierCount := r.at 0x4A 2, countersPerTeam := r.at 0x4C 2, splitFlows := r.at 0x4E 2,
    hbmWeight := r.at 0x50 8, kvReserve := r.at 0x58 8, kvPerToken := r.at 0x60 4, formats := r.at 0x64 2,
    gait := r.at 0x66 1, treeMax := r.at 0x67 1, features := r.at 0x68 8, stepBase := r.at 0x70 4, stepPer := r.at 0x74 4,
    seed := BitVec.ofNat 64 (r.at 0x78 8), vocab := r.at 0x80 4, maxBatch := r.at 0x84 2, prefillNs := r.at 0x88 4,
    peerHash := BitVec.ofNat 256 (r.at 0xA0 32) }

/-- `LENGTH`. -/
def imgLen (r : ImgRead) : Nat := r.at 0x10 8

/-- `HASH`. -/
def imgHash (r : ImgRead) : BitVec 256 := BitVec.ofNat 256 (r.at 0x20 32)

/-- `SECT_COUNT`. -/
def sectCount (r : ImgRead) : Nat := r.at 0x0C 4

/-- An entry of the section table (R216). -/
structure Sect where
  type : Nat
  off : Nat
  size : Nat
  zero : Bool
  deriving DecidableEq, Repr

/-- The section table. -/
def sectsOf (r : ImgRead) : List Sect :=
  (List.range (min (sectCount r) 7)).map (fun i =>
    let o := 0x100 + 32 * i
    ⟨r.at o 2, r.at (o + 8) 8, r.at (o + 16) 8, decide (r.at (o + 2) 6 = 0) && decide (r.at (o + 24) 8 = 0)⟩)

/-- The section of a type. -/
def sectOf (r : ImgRead) (t : Nat) : Option Sect := (sectsOf r).find? (fun s => s.type = t)

/-- Bytes of a section at an offset. -/
def sectAt (r : ImgRead) (t : Nat) : ImgRead :=
  match sectOf r t with
  | some s => fun o n => r (s.off + o) n
  | none => fun _ n => List.replicate n 0

/-- Bytes of a section. -/
def sectSize (r : ImgRead) (t : Nat) : Nat :=
  match sectOf r t with
  | some s => s.size
  | none => 0

/-- The first checks of step 3 of R221: magic, version and header size. -/
def magicOk (r : ImgRead) : Bool := decide (r.at 0 4 = 0x4D495A48) && decide (r.at 4 2 = 1) && decide (r.at 8 4 = 256)

/-- The checks of R219. -/
def featOk (r : ImgRead) : Bool := decide (r.at 0x64 2 < 512) && decide (r.at 0x68 8 < 32)

/-- The ranges of the header and envelope (R213, R214, R218). -/
def envOk (r : ImgRead) : Bool :=
  let e := envOf r
  let z := fun o n => decide (r.at o n = 0)
  decide (5 ≤ sectCount r) && decide (sectCount r ≤ 7) && decide (imgLen r % 64 = 0) && z 0x18 8 && z 0x86 2 && z 0x8C 20
    && z 0xC0 64 && decide (1 ≤ e.width) && decide (e.width ≤ 80) && decide (1 ≤ e.height) && decide (e.height ≤ 59)
    && decide (e.role < 32) && decide (e.semCount ≤ 4096) && decide (1 ≤ e.barrierCount) && decide (e.barrierCount ≤ 256)
    && decide (e.kvReserve % 32768 = 0) && decide (e.gait ≤ 3) && (e.split || decide (e.splitFlows = 0))
    && (if e.target then decide (1 ≤ e.treeMax) && decide (e.treeMax ≤ 16) else decide (e.treeMax = 0))
    && decide (1 ≤ e.stepBase) && decide (1 ≤ e.stepPer) && decide (1 ≤ e.prefillNs)
    && (if e.logits then decide (2 ≤ e.vocab) && decide (e.vocab ≤ 262144) else decide (e.vocab = 0))
    && decide (1 ≤ e.maxBatch) && decide (e.maxBatch ≤ 4096)
    && (!e.sessionPart || e.split) && (if e.split then decide (e.peerHash ≠ 0) else decide (e.peerHash = 0))
    && !(e.draft && e.target) && (decide (e.features / 8 % 2 = 0) || e.split)

/-- The size that R216 gives a section; none where it is not fixed by the envelope. -/
def sectNeed (e : Env) (t : Nat) : Option Nat :=
  match t with
  | 1 => some (e.width * e.height * 64 * 32)
  | 4 => some 32768
  | 5 => some (e.barrierCount * e.width * e.height * 32)
  | 6 => some e.hbmWeight
  | 7 => some 64
  | _ => none

/-- Do two byte ranges overlap? -/
def overlaps (a b : Sect) : Bool := decide (a.off < b.off + b.size) && decide (b.off < a.off + a.size)

/-- Does an entry of a list of sections overlap a later one? -/
def anyOverlap : List Sect → Bool
  | [] => false
  | s :: r => r.any (overlaps s) || anyOverlap r

/-- The checks of the section table (R216, R218). -/
def tableOk (r : ImgRead) : Bool :=
  let e := envOf r
  let l := sectsOf r
  let head := 0x100 + 32 * sectCount r
  let count := fun t => (l.filter (fun s => s.type = t)).length
  decide (head ≤ imgLen r)
    && l.all (fun s => s.zero && decide (1 ≤ s.type) && decide (s.type ≤ 7) && decide (count s.type = 1)
        && decide (s.off % 64 = 0) && decide (s.off + s.size ≤ imgLen r) && decide (head ≤ s.off)
        && (match sectNeed e s.type with
            | some n => decide (s.size = n)
            | none => s.type ≠ 2 || decide (s.size % 16 = 0)))
    && [1, 2, 3, 4, 5].all (fun t => decide (count t = 1))
    && decide ((count 6 = 1) = (e.hbmWeight ≠ 0)) && decide ((count 7 = 1) = (e.features / 8 % 2 = 1)) && !anyOverlap l

/-- A record of `CORE_MAP` (R217). -/
structure CoreRec where
  c : Nat
  w : Nat
  code : Nat
  ro : Nat
  start : Nat
  pcs : List Nat
  zero : Bool
  deriving DecidableEq, Repr

/-- The record of core index `i`. -/
def coreRec (r : ImgRead) (i : Nat) : CoreRec :=
  let m := sectAt r 1
  let o := 32 * i
  { c := m.at o 2, w := m.at (o + 2) 2, code := m.at (o + 4) 4, ro := m.at (o + 8) 4, start := m.at (o + 12) 1,
    pcs := (List.range 4).map (fun t => m.at (o + 16 + 2 * t) 2),
    zero := decide (m.at (o + 13) 3 = 0) && decide (m.at (o + 24) 8 = 0) }

/-- Offset and length of a blob (R216). -/
def blobOf (r : ImgRead) (k : Nat) : Nat × Nat := ((sectAt r 2).at (16 * k) 8, (sectAt r 2).at (16 * k + 8) 4)

/-- The bytes of a blob; none is named by 0xFFFF_FFFF. -/
def blobBytes (r : ImgRead) (k : Nat) : List Byte :=
  if k = 0xFFFFFFFF then [] else (sectAt r 3) (blobOf r k).1 (blobOf r k).2

/-- Does a blob that a record names exist and fit its region? -/
def blobOk (r : ImgRead) (k room : Nat) : Bool :=
  decide (k = 0xFFFFFFFF) || (decide (k < sectSize r 2 / 16) && decide ((blobOf r k).2 ≤ room))

/-- The checks of a core's record (R217, R218). -/
def coreOk (r : ImgRead) (e : Env) (i : Nat) : Bool :=
  let m := coreRec r i
  m.zero && decide (m.start < 16) && decide (m.c ≤ m.w) && decide (m.w ≤ 640) && decide (64 * m.w ≤ e.cisternBytes)
    && blobOk r m.code (64 * m.c) && blobOk r m.ro (64 * (m.w - m.c))
    && (m.pcs.zipIdx).all (fun p => decide (m.start / 2 ^ p.2 % 2 = 0) || (decide (p.1 % 8 = 0) && decide (p.1 < 64 * m.c)))

/-- The entry of a virtual ID; none where it is not valid (R185). -/
def semOf (r : ImgRead) (vid : Nat) : Option SemEnt :=
  let w := (sectAt r 4).at (8 * vid) 8
  if w / 2 ^ 22 % 2 = 1 then some ⟨w % 512, w / 512 % 128, w / 2 ^ 16 % 64, w / 2 ^ 24 % 2 ^ 24⟩ else none

/-- The valid entries, by virtual ID. -/
def semsOf (r : ImgRead) : List (Nat × SemEnt) := (List.range 4096).filterMap (fun v => (semOf r v).map (fun e => (v, e)))

/-- The checks of the semaphore table (R186, R218). -/
def semOk (r : ImgRead) (e : Env) : Bool :=
  let l := semsOf r
  let inTeam := fun (s : SemEnt) => (l.filter (fun t => decide (t.2.u = s.u) && decide (t.2.v = s.v))).length
  decide (l.length = e.semCount)
    && (List.range 4096).all (fun v =>
        let w := (sectAt r 4).at (8 * v) 8
        decide (w / 2 ^ 23 % 2 = 0) && decide (w / 2 ^ 48 = 0))
    && l.all (fun s => decide (s.2.u < e.width) && decide (s.2.v < e.height)
        && decide ((l.filter (fun t => decide (t.2.u = s.2.u) && decide (t.2.v = s.2.v) && decide (t.2.ctr = s.2.ctr))).length = 1))
    && decide ((l.map (fun s => inTeam s.2)).foldl max 0 = e.countersPerTeam)

/-- The mask of barrier `n` and team index `k` (R216). -/
def maskOf (r : ImgRead) (e : Env) (n k : Nat) : BitVec 256 :=
  BitVec.ofNat 256 ((sectAt r 5).at (32 * (n * (e.width * e.height) + k)) 32)

/-- Participants of a barrier. -/
def maskCount (r : ImgRead) (e : Env) (n : Nat) : Nat :=
  ((List.range (e.width * e.height)).map (fun k => ((List.range 256).filter (fun i => bit (maskOf r e n k) i)).length)).sum

/-- The checks of the barrier masks (R218). -/
def maskOk (r : ImgRead) (e : Env) : Bool :=
  (List.range e.barrierCount).all (fun n => (List.range (e.width * e.height)).all (fun k => (List.range 256).all (fun i =>
    !bit (maskOf r e n k) i || decide ((coreRec r (64 * k + i / 4)).start / 2 ^ (i % 4) % 2 = 1))))
    && decide (0 < maskCount r e 0)

/-- The spanning and home masks (R216); 0 without the section. -/
def spanOf (r : ImgRead) : BitVec 256 × BitVec 256 :=
  (BitVec.ofNat 256 ((sectAt r 7).at 0 32), BitVec.ofNat 256 ((sectAt r 7).at 32 32))

/-- The checks of the spanning barriers (R218). -/
def spanOk (r : ImgRead) (e : Env) : Bool :=
  let s := spanOf r
  !bit s.1 0 && decide (s.1.toNat < 2 ^ e.barrierCount) && decide (s.2 &&& ~~~s.1 = 0)

/-- Every blob lies inside `BLOB_DATA`, and its reserved word is 0 (R216, R218). -/
def dirOk (r : ImgRead) : Bool :=
  (List.range (sectSize r 2 / 16)).all (fun k =>
    decide ((blobOf r k).1 + (blobOf r k).2 ≤ sectSize r 3) && decide ((sectAt r 2).at (16 * k + 12) 4 = 0))

/-- Step 3 of R221: a status, 0 where the header and section table pass. -/
def headStatus (r : ImgRead) : Nat :=
  if !magicOk r then 0x0203 else if !featOk r then 0x0204 else if envOk r && tableOk r then 0 else 0x0203

/-- The whole image is well formed (R218). -/
def imageOk (r : ImgRead) : Bool :=
  let e := envOf r
  decide (headStatus r = 0) && dirOk r && (List.range (e.width * e.height * 64)).all (coreOk r e) && semOk r e && maskOk r e
    && spanOk r e

/-- SHA-256 of an image of `LENGTH` bytes, with `HASH` taken as 0 (R213). -/
def hashOf (l : List Byte) : BitVec 256 := sha256Nat (l.take 0x20 ++ List.replicate 32 0 ++ l.drop 0x40)

end Sys2Proof.Machine
end

