-- ==== Sys2Proof/Machine/Flags.lean ====
section
/-! DEFINITION. The arithmetic status word of a thread (R133, R143, R144). -/

namespace Sys2Proof.Machine

/-- The bits of `ASTAT` that one result sets: `NV`, `DZ`, `OF`, `UF`, `NX` (R143). -/
def Flags.astat (f : Flags) : Word :=
  at_ 0 f.nv.toNat ||| at_ 1 f.dz.toNat ||| at_ 2 f.of.toNat ||| at_ 3 f.uf.toNat ||| at_ 4 f.nx.toNat

/-- Sets flags in a thread's `ASTAT`; arithmetic never clears one (R143). -/
def Thread.flag (x : Thread) (f : Flags) : Thread := { x with astat := x.astat ||| f.astat }

/-- What a read-out copies into `ASTAT`: `ASAT` and `AINX` (R133). -/
def accAstat (a : Acc) : Word := at_ 5 a.sat.toNat ||| at_ 6 a.inx.toNat

/-- Flags of a list of results together. -/
def allFlags (l : List (Nat × Flags)) : Flags := l.foldl (fun f r => f.or r.2) Flags.none

end Sys2Proof.Machine
end

