-- ==== Sys2Proof/Machine/Operands.lean ====
section
/-! DEFINITION. The operand forms of the core instructions: field checks, effective addresses, remote
words, operand streams and the generator (R48, R135, R146 to R148, R153, R154, R166). -/

namespace Sys2Proof.Machine

/-- A field that names a vector register or an accumulator: its bit 4 is 0 (R146, R148). -/
def isV (r : BitVec 5) : Bool := decide (r.toNat < 16)

/-- Bits [hi - 1 : lo] of a word are 0 (R148). -/
def zeros {n : Nat} (w : BitVec n) (lo : Nat) : Bool := decide (w.toNat / 2 ^ lo = 0)

/-- The effective address sA + `IMM`, modulo 2^16 (R153). -/
def effAddr (h : Thread) (x : Fields) : Nat := (h.rs x.a + x.imm).toNat % 65536

/-- Do `n` bytes at an address lie below 0xA000 and within one line (R73)? -/
def inLine (a n : Nat) : Bool := decide (a + n ≤ 0xA000) && decide (a / 64 = (a + n - 1) / 64)

/-- The fields of a remote address word (R166). -/
structure Remote where
  line : Nat
  cx : Nat
  v : Nat
  u : Nat
  deriving DecidableEq, Repr

/-- Reads a remote address word; its bits [31:29], which R166 gives as 0, are ignored (DESIGN CHOICE, log 118). -/
def remoteOf (w : Word) : Remote := ⟨fld w 0 10, fld w 10 6, fld w 16 6, fld w 22 7⟩

/-- The next draw of a core's generator, and the core with its state advanced (R135). -/
def draw (c : CoreS) : CoreS × Nat :=
  let r := srNext c.sr
  ({ c with sr := r.1 }, r.2)

/-- `n` draws, in order. -/
def draws : Nat → CoreS → CoreS × List Nat
  | 0, c => (c, [])
  | n + 1, c =>
    let r := draw c
    let q := draws n r.1
    (q.1, r.2 :: q.2)

/-! ### Operand streams -/

/-- Reads line `l` of the cistern into a list of held lines, unless it is held already. -/
def holdLine (ck l : Nat) (r : Block × List (Nat × Line)) : Block × List (Nat × Line) :=
  if r.2.any (fun e => e.1 = l) then r
  else
    match portRead r.1 ck l with
    | (b, some v) => (b, r.2 ++ [(l, v)])
    | (b, none) => (b, r.2)

/-- The lines, from that of pointer `p` on, that the stream holds: `n` of them, up to line 639 (R154). -/
def wantLines (p n : Nat) : List Nat := ((List.range n).map (fun i => p / 64 + i)).filter (fun l => decide (l < 640))

/-- Reads ahead: two data lines, and one scale line, the next one too once fewer than 8 unread scale
bytes remain (R48, R154). -/
def fillStream (b : Block) (ck : Nat) (z : Stream) : Block × Stream :=
  let wd := wantLines z.dptr 2
  let ws := wantLines z.sptr (if 64 - z.sptr % 64 < 8 then 2 else 1)
  let rd := wd.foldl (fun r l => holdLine ck l r) (b, z.data.filter (fun e => wd.contains e.1))
  let rs := ws.foldl (fun r l => holdLine ck l r) (rd.1, z.scale.filter (fun e => ws.contains e.1))
  (rs.1, { z with data := rd.2, scale := rs.2 })

/-- Byte `a` of the lines held, where its line is held. -/
def heldByte (l : List (Nat × Line)) (a : Nat) : Option Byte :=
  match l.find? (fun e => e.1 = a / 64) with
  | some e => some (BitVec.ofNat 8 (fld e.2 (8 * (a % 64)) 8))
  | none => none

/-- `n` held bytes from `a` on; none where a line is missing. -/
def heldBytes (l : List (Nat × Line)) (a n : Nat) : Option (List Byte) :=
  (List.range n).mapM (fun i => heldByte l (a + i))

end Sys2Proof.Machine
end

