-- ==== Sys2Proof/Machine/Route.lean ====
section
/-! DEFINITION. The routers of the mesh: routes, router inputs and their credits, output grants, and one hop of a
packet (R60, R61, R64, R65, R67, R68). -/

namespace Sys2Proof.Machine

/-- The team of a key. -/
def teamOf (k : Nat) : TeamId := ⟨Fin.ofNat 80 (k / 59), Fin.ofNat 59 (k % 59)⟩

/-- The core of a key. -/
def coreOf (k : Nat) : CoreId := ⟨teamOf (k / 64), Fin.ofNat 64 (k % 64)⟩

/-! ### Routes (R65) -/

/-- The numbers after `a` up to `b`, upward or downward. -/
def stretch (a b : Nat) : List Nat :=
  if a ≤ b then (List.range (b - a)).map (fun i => a + 1 + i) else (List.range (a - b)).map (fun i => a - 1 - i)

/-- The routers of a packet's way, as team keys: from the source team along its row to the destination column, then along
that column (R65). -/
def meshRoute (s d : TeamId) : List Nat :=
  teamKey s :: (stretch s.col.val d.col.val).map (fun c => c * 59 + s.row.val)
    ++ (stretch s.row.val d.row.val).map (fun r => d.col.val * 59 + r)

/-- The team whose router takes a sender's packets. -/
def meshTeam : MeshSrc → TeamId
  | .core c => c.team
  | .pump t => t
  | .sync t => t

/-- Does a packet travel on VC_RSP (R62)? -/
def MBody.rsp : MBody → Bool
  | .readResp _ _ _ => true
  | .ack _ => true
  | _ => false

/-- Flits of a packet (R61, R62). -/
def MBody.flits : MBody → Nat
  | .write _ _ d => max 1 d.length
  | .readResp d _ _ => max 1 d.length
  | _ => 1

/-- Does a packet wait at its destination for the port of the cistern that it addresses (R51, R195)?  The core it addresses. -/
def MBody.port : MBody → Option Nat
  | .write cx _ _ => some cx
  | .readReq cx _ _ _ _ => some cx
  | _ => none

/-- A packet that its sender hands to the mesh: every flit is still there. -/
def packet (src : MeshSrc) (dst : TeamId) (p : Nat) (body : MBody) : MPkt :=
  ⟨src, dst, p, body, body.flits :: List.replicate ((meshRoute (meshTeam src) dst).length - 1) 0, false⟩

/-- Puts a packet into the mesh (R62, R67). -/
def inject (b : Block) (k : MPkt) : Block := { b with die := { b.die with mesh := b.die.mesh ++ [k] } }

/-! ### Places of a packet -/

/-- The routers of a packet's way. -/
def MPkt.way (m : MPkt) : List Nat := meshRoute (meshTeam m.src) m.dst

/-- The place of a packet's head flit. -/
def MPkt.head (m : MPkt) : Nat := ((m.flits.zipIdx.filter (fun e => e.1 ≠ 0)).map (·.2)).foldl max 0

/-- The router where a packet's head flit is. -/
def MPkt.where_ (m : MPkt) : Nat := m.way.getD m.head 0

/-- Has the head flit reached the router of the destination team? -/
def MPkt.there (m : MPkt) : Bool := decide (m.head + 1 = m.way.length)

/-- The side of router `k` on which router `n` lies: 0 itself, its local port; 1 east; 2 west; 3 north; 4 south (R60). -/
def side (k n : Nat) : Nat :=
  if k = n then 0 else if keyCol k < keyCol n then 1 else if keyCol n < keyCol k then 2 else if keyRow k < keyRow n then 3 else 4

/-- The input by which a packet enters the router at place `i` of its way, and the output by which it leaves. -/
def MPkt.input (m : MPkt) (i : Nat) : Nat := if i = 0 then 0 else side (m.way.getD i 0) (m.way.getD (i - 1) 0)

/-- The output by which a packet leaves the router at place `i`. -/
def MPkt.output (m : MPkt) (i : Nat) : Nat := side (m.way.getD i 0) (m.way.getD (i + 1) (m.way.getD i 0))

/-- The place that input `i` of router `r` has on a packet's way. -/
def MPkt.placeAt (m : MPkt) (r i : Nat) : Option Nat := (m.way.findIdx? (fun k => k = r)).filter (fun j => m.input j = i)

/-- Flits of a packet in input `i` of router `r` on a channel; the local input stands for the senders of the team. -/
def MPkt.held (m : MPkt) (r i : Nat) (rsp : Bool) : Nat :=
  if m.body.rsp = rsp ∧ !m.port then ((m.placeAt r i).map (fun j => m.flits.getD j 0)).getD 0 else 0

/-- Does a packet lie in part in input `i` of router `r`, its head beyond? -/
def MPkt.crosses (m : MPkt) (r i : Nat) (rsp : Bool) : Bool := decide (0 < m.held r i rsp) && decide (m.where_ ≠ r)

/-! ### Credits and grants (R64, R68) -/

/-- Free places of input `i` of router `r` on a channel: each holds 8 flits (R64). -/
def credits (l : List MPkt) (r i : Nat) (rsp : Bool) : Nat := 8 - (l.map (fun m => m.held r i rsp)).sum

/-- Is a packet at the front of the input where its head is?  No other packet crosses from that input, and none has its head
there from before; at the local input, none of its own sender to its own destination (R67). -/
def leads (l : List MPkt) (m : MPkt) : Bool :=
  let r := m.where_
  let i := m.input m.head
  l.all (fun q => !q.crosses r i m.body.rsp)
    && (l.takeWhile (fun q => q ≠ m)).all (fun q =>
      decide (q.held r i m.body.rsp = 0) || (decide (m.head = 0) && (decide (q.src ≠ m.src) || decide (q.dst ≠ m.dst))))

/-- Key of an output of a router on a channel. -/
def outKey (r o : Nat) (rsp : Bool) : Nat := 10 * r + 2 * o + rsp.toNat

/-- The inputs of a router whose front packet wants an output on a channel. -/
def wanting (l : List MPkt) (r o : Nat) (rsp : Bool) : List Nat :=
  (l.filter (fun q => !q.port && decide (q.body.rsp = rsp) && decide (q.where_ = r) && decide (q.output q.head = o) && leads l q)).map
    (fun q => q.input q.head)

/-- Is an output taken by a packet whose flits still pass (R68)? -/
def outBusy (l : List MPkt) (r o : Nat) (rsp : Bool) : Bool :=
  l.any (fun q => !q.port && decide (q.body.rsp = rsp) && decide (q.where_ ≠ r) && (q.way.zipIdx.any (fun e =>
    decide (e.1 = r) && decide (e.2 < q.head) && decide (q.output e.2 = o) && (q.flits.take (e.2 + 1)).any (fun n => n ≠ 0))))

/-- The first of the inputs `ins` after input `last`, in turn (R68). -/
def inTurn (ins : List Nat) (last : Nat) : Option Nat :=
  ((List.range 5).map (fun i => (last + 1 + i) % 5)).find? (fun i => ins.contains i)

/-- Does a packet's router grant it its output?  No other packet's flits pass there, and its input's turn has come among the
inputs that want the output (R68; per channel, log 115). -/
def granted (b : Block) (m : MPkt) : Bool :=
  let l := b.die.mesh
  let r := m.where_
  let o := m.output m.head
  leads l m && !outBusy l r o m.body.rsp
    && decide (inTurn (wanting l r o m.body.rsp) (tget 0 b.die.grants (outKey r o m.body.rsp)) = some (m.input m.head))

/-- Does an earlier packet wait for the port of the same core's cistern? -/
def portTaken (l : List MPkt) (m : MPkt) : Bool :=
  (l.takeWhile (fun q => q ≠ m)).any (fun q => q.port && decide (q.dst = m.dst) && decide (q.body.port = m.body.port))

/-- Free places of the input that a packet's head would enter next. -/
def nextRoom (b : Block) (m : MPkt) : Nat :=
  credits b.die.mesh (m.way.getD (m.head + 1) 0) (m.input (m.head + 1)) m.body.rsp

/-- Can a packet make its next move: be served by the cistern port, leave the mesh, or hop on? -/
def canMove (b : Block) (m : MPkt) : Bool :=
  if m.port then !portTaken b.die.mesh m
  else granted b m && (m.there || decide (0 < nextRoom b m))

/-! ### Moves -/

/-- Spreads `n` flits over the places from `i` down, each up to its room; the rest stays with the sender. -/
def spread (room : Nat → Nat) : Nat → Nat → List Nat
  | 0, n => [n]
  | i + 1, n => spread room i (n - min n (room (i + 1))) ++ [min n (room (i + 1))]

/-- A packet after its head has gone one place on and its other flits have followed as far as there is room (R64). -/
def MPkt.forward (b : Block) (m : MPkt) : MPkt :=
  let room := fun i =>
    if i = m.head + 1 then nextRoom b m
    else m.flits.getD i 0 + credits b.die.mesh (m.way.getD i 0) (m.input i) m.body.rsp
  { m with flits := spread room (m.head + 1) m.flits.sum ++ List.replicate (m.way.length - m.head - 2) 0 }

/-- Notes the input that an output has granted. -/
def noteGrant (b : Block) (m : MPkt) : Block :=
  { b with die := { b.die with grants := tput 0 b.die.grants (outKey m.where_ (m.output m.head) m.body.rsp) (m.input m.head) } }

/-- Takes a packet out of the mesh. -/
def takeOut (b : Block) (m : MPkt) : Block := { b with die := { b.die with mesh := b.die.mesh.erase m } }

/-- How far on its way a packet is. -/
def MPkt.progress (m : MPkt) : Nat := if m.port then m.way.length else m.head

/-- Of the packets from a source to a team that `sel` picks and that can move, the one furthest on its way, the earliest of
those at one place (R67). -/
def nextPkt (b : Block) (src : MeshSrc) (dst : TeamId) (sel : MBody → Bool) : Option MPkt :=
  (b.die.mesh.filter (fun m => decide (m.src = src) && decide (m.dst = dst) && sel m.body && canMove b m)).foldl (fun a m =>
    match a with
    | none => some m
    | some q => if q.progress < m.progress then some m else some q) none

end Sys2Proof.Machine
end

