-- ==== Sys2Proof/Machine/Sync.lean ====
section
/-! DEFINITION. Sync memories, waits, fences and barriers, with the instructions that reach them (R171
to R174, R182 to R202). -/

namespace Sys2Proof.Machine

/-- Wakes a napping core (R205). -/
def wake (b : Block) (ck : Nat) : Block := coreMod b ck (fun c => { c with napping := false })

/-- The paddock number that a fault's detail names: that of the team, or 0. -/
def padNum (b : Block) (k : Nat) : Nat := (padOf b k).getD 0

/-- The detail words of a counter fault (R192): operation code, virtual ID, issuing thread, counter's
team and number, amount, counter value. -/
def raiseSem (b : Block) (src op vid thr team ctr n val : Nat) : Block :=
  let it := thr / 256
  raise b src contained
    (at_ 0 vid ||| at_ 12 (padNum b team) ||| at_ 18 (thr % 4) ||| at_ 20 (thr / 4 % 64) ||| at_ 26 op)
    (at_ 0 ctr ||| at_ 9 (keyCol team) ||| at_ 16 (physRow b (keyCol team) (keyRow team)))
    (at_ 0 (n % 2 ^ 24) ||| at_ 24 (keyCol it))
    (at_ 0 (val % 2 ^ 24) ||| at_ 24 (physRow b (keyCol it) (keyRow it)))
    (unitOf b team)

/-! ### Counters -/

/-- A counter's value (R182). -/
def ctrGet (b : Block) (team c : Nat) : Nat := tget 0 b.die.ctr (512 * team + c)

/-- Sets a counter; the write stores fresh check bits. -/
def ctrPut (b : Block) (team c v : Nat) : Block :=
  { b with die := { b.die with ctr := tput 0 b.die.ctr (512 * team + c) v,
                               ctrErr := tput 0 b.die.ctrErr (512 * team + c) 0 } }

/-- What the service of a counter has done so far (R172). -/
structure Served where
  value : Nat
  blocked : Bool
  kept : List Waiter
  freed : List Waiter
  deriving DecidableEq, Repr

/-- One waiter of the queue, in arrival order (R172): a `TAKE` never overtakes an earlier `TAKE`, a
`WAITGE` only observes. -/
def serveOne (team c : Nat) (z : Served) (w : Waiter) : Served :=
  if w.team = team ∧ w.ctr = c then
    if w.take then
      if z.blocked then { z with kept := z.kept ++ [w] }
      else if z.value < w.n then { z with blocked := true, kept := z.kept ++ [w] }
      else { z with value := z.value - w.n, freed := z.freed ++ [w] }
    else if w.n ≤ z.value then { z with freed := z.freed ++ [w] }
    else { z with kept := z.kept ++ [w] }
  else { z with kept := z.kept ++ [w] }

/-- A wait is over: the thread is ready, and its core awake (R179, R205). -/
def endWait (b : Block) (k : Nat) : Block :=
  wake (thrMod b k (fun x => { x with st := .ready, wait := none })) (k / 4)

/-- Releases a waiter: a local thread is ready; for a remote one the release reply sets out (R179). -/
def releaseWaiter (b : Block) (w : Waiter) : Block :=
  if w.remote then
    thrMod b w.thr (fun x => { x with wait := x.wait.map (fun y => { y with released := true }) })
  else endWait b w.thr

/-- The service of a counter: run at each change and at each arrival of a wait (R172). -/
def serve (b : Block) (team c : Nat) : Block :=
  let z := b.die.waiters.foldl (serveOne team c) ⟨ctrGet b team c, false, [], []⟩
  let b := { b with die := { b.die with waiters := z.kept,
                                        ctr := tput 0 b.die.ctr (512 * team + c) z.value } }
  z.freed.foldl releaseWaiter b

/-- The check of a counter's stored value before an operation (R182): a corrected error is logged, an
uncorrectable one raises `SYNC_UE`, with the words of R192, and the operation is not applied. -/
def ctrCheck (b : Block) (team c op vid thr n : Nat) : Block × Bool :=
  let e := tget 0 b.die.ctrErr (512 * team + c)
  if e = 0 then (b, true)
  else if 64 < e then (raiseSem b (teamSource b team) op vid thr team c n (ctrGet b team c), false)
  else
    let b := raise b (teamSource b team) corrected (placeD0 b (64 * team)) 0 0 0 (unitOf b team)
    ({ b with die := { b.die with ctrErr := tput 0 b.die.ctrErr (512 * team + c) 0 } }, true)

/-- How many of a sync memory's waiter records serve other teams (R189). -/
def remoteRecords (b : Block) (team : Nat) : Nat :=
  (b.die.waiters.filter (fun w => decide (w.team = team) && w.remote)).length

/-- One operation applied at a sync memory (R183, R187 to R189). -/
def applySem (b : Block) (op : SemOp) (team c n vid thr : Nat) (remote : Bool) : Block :=
  match ctrCheck b team c op.code vid (if op = .pumpAdd then thr / 4 * 4 else thr) n with
  | (b, false) => b
  | (b, true) =>
    let v := ctrGet b team c
    match op with
    | .sadd =>
      if v + n ≤ 16777215 then serve (ctrPut b team c (v + n)) team c
      else raiseSem b 0x101 SemOp.sadd.code vid thr team c n v
    | .pumpAdd =>
      if v + n ≤ 16777215 then serve (ctrPut b team c (v + n)) team c
      else raiseSem b 0x101 SemOp.pumpAdd.code vid (thr / 4 * 4) team c n v
    | .ssub =>
      if n ≤ v then serve (ctrPut b team c (v - n)) team c
      else raiseSem b 0x100 SemOp.ssub.code vid thr team c n v
    | op =>
      if remote && decide (768 ≤ remoteRecords b team) then
        thrMod b thr (fun x => { x with wait := x.wait.map (fun y => { y with refused := true }) })
      else
        let w : Waiter := ⟨team, c, n, decide (op = .take), thr, remote, vid⟩
        serve { b with die := { b.die with waiters := b.die.waiters ++ [w] } } team c

/-- The valid entry of a virtual ID in a paddock's row (R185). -/
def translate (b : Block) (p vid : Nat) : Option SemEnt := tget none (padGet b p).sem vid

/-- The words of `SEM_TABLE_UE` (R186, R192): the ID that could not be translated, so that no counter is named (log 116). -/
def raiseTable (b : Block) (team p vid op thr n : Nat) : Block :=
  raise b 0x106 contained
    (at_ 0 vid ||| at_ 12 p ||| at_ 18 (thr % 4) ||| at_ 20 (thr / 4 % 64) ||| at_ 26 op) 0
    (at_ 0 (n % 2 ^ 24) ||| at_ 24 (keyCol team)) (at_ 24 (physRow b (keyCol team) (keyRow team))) (.paddock p)

/-- The check of an entry of a team's translation copy as an ID is translated (R186): a corrected error is logged against
0x106, an uncorrectable one raises `SEM_TABLE_UE` and nothing is translated. -/
def tableCheck (b : Block) (team p vid op thr n : Nat) : Block × Bool :=
  let e := tget 0 b.die.semErr (4096 * team + vid)
  if e = 0 then (b, true)
  else if 64 < e then (raiseTable b team p vid op thr n, false)
  else
    let b := raise b 0x106 corrected (placeD0 b (64 * team)) 0 0 0 (.paddock p)
    ({ b with die := { b.die with semErr := tput 0 b.die.semErr (4096 * team + vid) 0 } }, true)

/-- The module rewrites the translation copies of a paddock's teams from the master table (R186). -/
def rewriteCopies (b : Block) (x : Pad) : Block :=
  { b with die := { b.die with semErr := b.die.semErr.filter (fun e => !x.has (e.1 / 4096)) } }

/-- A thread begins to wait or is parked: from here the nap threshold runs, as it stands now (R204, R207). -/
def Thread.rest (x : Thread) (b : Block) : Thread :=
  { x with idleAt := b.time, napAfter := 100 * max 5 (regFld b 0x30400 8 16) }

/-- The core cycles a wait's timer is loaded with; values below 1,024 act as 1,024 (R176, R190). -/
def Thread.limit (x : Thread) : Nat := max 1024 x.wtimeout.toNat

/-- The team key that an entry names (R185). -/
def entTeam (x : Pad) (e : SemEnt) : Nat := (x.col + e.u) * 59 + (x.row + e.v)

/-- Sends an operation to its counter: at once in the core's own team, by packet otherwise (R171,
R184). -/
def sendSem (b : Block) (op : SemOp) (t : Thr) (p team c n vid : Nat) : Block :=
  if team = teamKey t.core.team then applySem b op team c n vid (thrKey t) false
  else inject b (packet (.core t.core) (teamOf team) p (.sem op c n vid (thrKey t)))

/-- The four counter instructions: ID in `IMM`[11:0]; the amount is `IMM`[31:12], or sB[23:0] with
`MOD`[0] (R171). -/
def semOp (op : SemOp) (t : Thr) (x : Fields) (b : Block) : Block :=
  let k := thrKey t
  issue b k []
    (decide (x.d = 0) && decide (x.a = 0) && zeros x.mod 1
      && (if bit x.mod 0 then zeros x.imm 12 else decide (x.b = 0))) (fun b =>
    let h := thrGet b k
    let vid := fld x.imm 0 12
    let n := if bit x.mod 0 then fld (h.rs x.b) 0 24 else fld x.imm 12 20
    let p := padNum b (teamKey t.core.team)
    match tableCheck b (teamKey t.core.team) p vid op.code k n with
    | (b, false) => stall b k
    | (b, true) =>
      match translate b p vid with
      | none => trapNow b k .semUnmapped 0
      | some e =>
        let team := entTeam (padGet b p) e
        if decide (op = .waitge) || decide (op = .take) then
          let w : Wait := ⟨op, false, vid, team, e.ctr, n, decide (team ≠ teamKey t.core.team), false, false, false,
            (padGet b p).cycles, h.limit⟩
          let b := thrMod b k (fun y => { y.rest b with st := .waiting, pc := y.pc + 8, wait := some w })
          sendSem b op t p team e.ctr n vid
        else advance (sendSem b op t p team e.ctr n vid) k)

/-- `FENCE`: stalls until the core's remote requests have been answered (`MOD`[0]), and until every pump
command the thread queued has completed (`MOD`[1]); its stores have been performed already (R173). -/
def fenceOp (t : Thr) (x : Fields) (b : Block) : Block :=
  issue b (thrKey t) []
    (decide (x.d = 0) && decide (x.a = 0) && decide (x.b = 0) && decide (x.imm = 0) && zeros x.mod 2
      && decide (fld x.mod 0 2 ≠ 0)) (fun b =>
    let mOk := !bit x.mod 0 || decide ((coreGet b (coreKey t.core)).outstanding = 0)
    let hOk := !bit x.mod 1 || (pumpGet b (teamKey t.core.team)).q.all (fun c => c.thr ≠ thrKey t)
    if mOk && hOk then advance b (thrKey t) else stall b (thrKey t))

/-! ### Barriers -/

/-- Barrier `n` of a paddock. -/
def Pad.bar (x : Pad) (n : Nat) : Bar := tget Bar.zero x.bars n

/-- Replaces a barrier. -/
def Pad.setBar (x : Pad) (n : Nat) (y : Bar) : Pad := { x with bars := tput Bar.zero x.bars n y }

/-- Key of a participant's round (R174). -/
def roundKey (x : Pad) (n thr : Nat) : Nat := n * 2 ^ 21 + 4 * x.coreIndex (thr / 4) + thr % 4

/-- Is a thread in a barrier's mask (R197, R216)? -/
def Pad.inMask (x : Pad) (n thr : Nat) : Bool :=
  bit (tget 0 x.masks (n * 4720 + x.coreIndex (thr / 4) / 64)) (thr % 256)

/-- The count of the open round. -/
def Bar.openCount (y : Bar) : Nat := if y.opened % 2 = 0 then y.even else y.odd

/-- Counts one arrival in a round's parity. -/
def Bar.count (y : Bar) (round : Nat) : Bar :=
  if round % 2 = 0 then { y with even := y.even + 1 } else { y with odd := y.odd + 1 }

/-- The open round completes (R174). -/
def Bar.complete (y : Bar) : Bar :=
  let z := { y with opened := (y.opened + 1) % 4, sent := false }
  if y.opened % 2 = 0 then { z with even := 0 } else { z with odd := 0 }

/-- Releases the threads of a paddock that wait at barrier `n` and whose round has completed (R174). -/
def releaseBar (b : Block) (p n : Nat) : Block :=
  let o := ((padGet b p).bar n).opened
  (b.die.thr.map (·.1)).foldl (fun b k =>
    match (thrGet b k).wait with
    | some w =>
      if w.barrier && decide (w.vid = n) && decide (padOf b (k / 256) = some p)
          && decide ((o + 4 - w.n) % 4 = 1) then endWait b k else b
    | none => b) b

/-- Completes the open round of barrier `n` where its count has reached `need`; a spanning barrier that
is not home sends its arrival instead, and one at home tells the other module (R174, R200). -/
def closeRound (b : Block) (p n : Nat) : Block :=
  let y := (padGet b p).bar n
  if y.openCount = y.need ∧ y.need ≠ 0 then
    if y.span && !y.home then
      if y.sent then b
      else askPeer (padMod b p (fun x => x.setBar n { y with sent := true })) p (.barrierArrive p n) true
    else
      let b := releaseBar (padMod b p (fun x => x.setBar n y.complete)) p n
      if y.span then askPeer b p (.barrierRelease p n) true else b
  else b

/-- The named counters of a paddock that differ from their `INIT`: virtual ID, team, counter, `INIT` (R201). -/
def residueCtrs (b : Block) (x : Pad) : List (Nat × SemEnt) :=
  x.sem.filterMap (fun e =>
    match e.2 with
    | some s => if ctrGet b (entTeam x s) s.ctr ≠ s.init then some (e.1, s) else none
    | none => none)

/-- The barriers 1 to 255 with a count that is not 0 (R201). -/
def residueBars (x : Pad) : List (Nat × Bar) :=
  x.bars.filter (fun e => decide (e.1 ≠ 0) && (decide (e.2.even ≠ 0) || decide (e.2.odd ≠ 0)))

/-- Lines of one logit set (R267). -/
def setLines (x : Pad) : Nat := cdiv x.env.vocab 16

/-- Raises `SAMPLER_INPUT` (R267). -/
def badInput (b : Block) (p : Nat) : Block := raise b 0x120 contained (padD0 p) 0 0 0 (.paddock p)

/-- Does the sampler hold every logit set of a step (R267)? -/
def setsHeld (x : Pad) (s : Step) : Bool :=
  (List.range (s.sets * setLines x)).all (fun m => (tget none s.lines m).isSome)

/-- The declared arrivals at barrier 0 have ended the step: the sampler reads its input, which must be complete (R181, R267), and
the residue check is made; the step waits for its commit (R180, R201, R202). -/
def stepEnd (b : Block) (p : Nat) : Block :=
  let x := padGet b p
  let full := x.step.all (setsHeld x)
  let b := if full then b else badInput b p
  match residueCtrs b x with
  | (vid, s) :: r =>
    let k := entTeam x s
    raise b 0x105 contained (at_ 0 vid ||| at_ 12 p ||| at_ 26 6)
      (at_ 0 s.ctr ||| at_ 9 (keyCol k) ||| at_ 16 (physRow b (keyCol k) (keyRow k)))
      (at_ 0 s.init ||| at_ 24 (min 127 (r.length + 1))) (at_ 0 (ctrGet b k s.ctr)) (.paddock p)
  | [] =>
    match residueBars x with
    | (n, y) :: r =>
      raise b 0x105 contained (at_ 0 n ||| at_ 12 p ||| at_ 26 6 ||| at_ 29 1) (at_ 2 y.opened)
        (at_ 0 (y.need % 2 ^ 24) ||| at_ 24 (min 127 (r.length + 1))) (at_ 0 ((y.even + y.odd) % 2 ^ 24))
        (.paddock p)
    | [] => padMod b p (fun x => { x with step := x.step.map (fun s => { s with ended := full }) })

/-- A barrier fault of an arrival (R192, R198). -/
def raiseBar (b : Block) (src p n thr round : Nat) (wait : Bool) : Block :=
  let y := (padGet b p).bar n
  let it := thr / 256
  raise b src contained
    (at_ 0 n ||| at_ 12 p ||| at_ 18 (thr % 4) ||| at_ 20 (thr / 4 % 64) ||| at_ 26 (if wait then 2 else 7))
    (at_ 0 round ||| at_ 2 y.opened ||| at_ 9 (keyCol it) ||| at_ 16 (physRow b (keyCol it) (keyRow it)))
    (at_ 0 (y.need % 2 ^ 24) ||| at_ 24 (keyCol it))
    (at_ 0 (y.openCount % 2 ^ 24) ||| at_ 24 (physRow b (keyCol it) (keyRow it))) (.paddock p)

/-- An arrival passes the cascade node of the thread's team: a corrected error of the node is logged against the team (R182, R212). -/
def nodeCheck (b : Block) (team : Nat) : Block :=
  if tget 0 b.die.nodeErr team = 0 then b
  else
    let b := raise b (teamSource b team) corrected (placeD0 b (64 * team)) 0 0 0 (unitOf b team)
    { b with die := { b.die with nodeErr := tput 0 b.die.nodeErr team 0 } }

/-- One arrival of a thread at barrier `n` (R174, R198). -/
def arriveAt (b : Block) (p n k : Nat) (wait : Bool) : Block :=
  let b := nodeCheck b (k / 256)
  let x := padGet b p
  let y := x.bar n
  let rk := roundKey x n k
  let mine := tget 0 x.rounds rk
  if !x.inMask n k then advance (raiseBar b 0x104 p n k mine wait) k
  else if (mine + 4 - y.opened) % 4 = 2 then advance (raiseBar b 0x103 p n k mine wait) k
  else
    let b := padMod b p (fun x => { x.setBar n (y.count mine) with rounds := tput 0 x.rounds rk ((mine + 1) % 4) })
    let b :=
      if wait then
        let w : Wait := ⟨.waitge, true, n, 0, 0, mine, false, false, false, false, x.cycles, (thrGet b k).limit⟩
        thrMod b k (fun h => { h.rest b with st := .waiting, pc := h.pc + 8, wait := some w })
      else advance b k
    let b := closeRound b p n
    let z := (padGet b p).bar 0
    if n = 0 ∧ z.openCount + 1 = z.need ∧ (padGet b p).step.any (fun q => q.going && !q.ended) then stepEnd b p else b

/-- `ARRIVE`: barrier `IMM`[7:0], waiting with `MOD`[0] (R174). -/
def arriveOp (t : Thr) (x : Fields) (b : Block) : Block :=
  issue b (thrKey t) []
    (decide (x.d = 0) && decide (x.a = 0) && decide (x.b = 0) && zeros x.mod 1 && zeros x.imm 8) (fun b =>
    let p := padNum b (teamKey t.core.team)
    if (padGet b p).env.barrierCount ≤ fld x.imm 0 8 then trapNow b (thrKey t) .barrierRange 0
    else arriveAt b p (fld x.imm 0 8) (thrKey t) (bit x.mod 0))

/-! ### The life of a wait -/

/-- A refused remote wait is sent again (R189). -/
def retryWait (t : Thr) (b : Block) : Block :=
  match (thrGet b (thrKey t)).wait with
  | some w =>
    if w.refused && decide ((thrGet b (thrKey t)).st = .waiting) then
      inject (thrMod b (thrKey t) (fun x => { x with wait := some { w with refused := false } }))
        (packet (.core t.core) (teamOf w.team) (padNum b (teamKey t.core.team)) (.sem w.op w.ctr w.n w.vid (thrKey t)))
    else b
  | none => b

/-- Has the timer of a thread's wait run out: have the core cycles it was loaded with passed since the issue (R10, R190)? -/
def timedOut (b : Block) (k : Nat) (w : Wait) : Bool :=
  decide (w.since + 10 * w.limit ≤ (padGet b (padNum b (k / 256))).cycles)

/-- The timer of a wait expires: the cancel sets out (R190). -/
def waitExpire (t : Thr) (b : Block) : Block :=
  let x := thrGet b (thrKey t)
  if x.st = .waiting ∧ x.wait.any (timedOut b (thrKey t)) then
    thrPut b (thrKey t) { x with wait := x.wait.map (fun w => { w with cancel := true }) }
  else b

/-- Is the packet of a thread's counter wait still in the mesh?  A thread has one wait at most. -/
def waitInFlight (b : Block) (k : Nat) : Bool :=
  b.die.mesh.any (fun m => match m.body with
    | .sem op _ _ _ j => (decide (op = .waitge) || decide (op = .take)) && decide (j = k)
    | _ => false)

/-- The cancel reaches the sync memory or node that holds the wait (R190, R191): a queued wait is
removed and `WAIT_TIMEOUT` raised; a released one stands.  It never overtakes the wait's own packet. -/
def cancelArrives (t : Thr) (b : Block) : Block :=
  let k := thrKey t
  match (thrGet b k).wait with
  | none => b
  | some w =>
    if !w.cancel || (!w.barrier && waitInFlight b k) then b
    else if w.released then thrMod b k (fun x => { x with wait := some { w with cancel := false } })
    else
      let b := { b with die := { b.die with waiters := b.die.waiters.filter (fun q => q.thr ≠ k) } }
      let b := thrMod b k (fun x => { x with wait := none })
      if w.barrier then
        let p := padNum b (k / 256)
        raiseBar b 0x102 p w.vid k w.n true
      else
        raiseSem b 0x102 w.op.code w.vid k w.team w.ctr w.n (ctrGet b w.team w.ctr)

/-- The release reply of a remote wait arrives (R179). -/
def replyArrives (t : Thr) (b : Block) : Block :=
  match (thrGet b (thrKey t)).wait with
  | some w => if w.released then endWait b (thrKey t) else b
  | none => b

/-- `SADD` (R187). -/
def execSadd (t : Thr) (x : Fields) (s : State) : Host.Outcome State Fault Refusal := onCore t (.sadd t x) (semOp .sadd t x) s

/-- `SSUB` (R187). -/
def execSsub (t : Thr) (x : Fields) (s : State) : Host.Outcome State Fault Refusal := onCore t (.ssub t x) (semOp .ssub t x) s

/-- `WAITGE` (R187). -/
def execWaitge (t : Thr) (x : Fields) (s : State) : Host.Outcome State Fault Refusal := onCore t (.waitge t x) (semOp .waitge t x) s

/-- `TAKE` (R187). -/
def execTake (t : Thr) (x : Fields) (s : State) : Host.Outcome State Fault Refusal := onCore t (.take t x) (semOp .take t x) s

/-- `FENCE` (R173). -/
def execFence (t : Thr) (x : Fields) (s : State) : Host.Outcome State Fault Refusal := onCore t (.fence t x) (fenceOp t x) s

/-- `ARRIVE` (R174). -/
def execArrive (t : Thr) (x : Fields) (s : State) : Host.Outcome State Fault Refusal := onCore t (.arrive t x) (arriveOp t x) s

/-- `WAIT_RETRY_RESEND` (R189). -/
def execWaitRetryResend (t : Thr) (s : State) : Host.Outcome State Fault Refusal := onBlk (retryWait t) s

/-- `WAIT_TIMEOUT` (R190). -/
def execWaitTimeout (t : Thr) (s : State) : Host.Outcome State Fault Refusal := onBlk (waitExpire t) s

/-- `WAIT_CANCEL_ARRIVAL` (R190). -/
def execWaitCancelArrival (t : Thr) (s : State) : Host.Outcome State Fault Refusal := onBlk (cancelArrives t) s

/-- `RELEASE_REPLY` (R179). -/
def execReleaseReply (t : Thr) (s : State) : Host.Outcome State Fault Refusal := onBlk (replyArrives t) s

end Sys2Proof.Machine
end

