-- ==== Sys2Proof/Machine/HbmOps.lean ====
section
/-! DEFINITION. Reading and writing HBM: segments, paddock addresses, errors and retirement (R86 to
R100). -/

namespace Sys2Proof.Machine

/-- Bytes of a segment (R89). -/
def segBytes : Nat := 2097152

/-- Changes HBM. -/
def hbmMod (b : Block) (f : HbmS → HbmS) : Block := { b with hbm := f b.hbm }

/-- What a segment holds. -/
def segGet (b : Block) (k : Nat) : Seg := tget .dirty b.hbm.segs k

/-- Sets what a segment holds. -/
def segPut (b : Block) (k : Nat) (x : Seg) : Block :=
  hbmMod b (fun h => { h with segs := tput .dirty h.segs k x })

/-- The stack of a device address (R88). -/
def stackOf (a : Nat) : Nat := (a / 2 ^ 8 % 8) ^^^ (a / 2 ^ 11 % 8) ^^^ (a / 2 ^ 14 % 8)

/-- The offset within the stack (R88). -/
def stackOffset (a : Nat) : Nat := a / 2 ^ 11 * 2 ^ 8 + a % 2 ^ 8

/-- The channel of a device address: bits [12:8] of its offset (R88). -/
def stackChannel (a : Nat) : Nat := stackOffset a / 2 ^ 8 % 2 ^ 5

/-- The pseudo-channel of a device address: bit [13] of its offset (R88). -/
def pseudoChannel (a : Nat) : Nat := stackOffset a / 2 ^ 13 % 2

/-- The window is disabled by the owner policy word: `SEC_POLICY.WINDOW_DIS` (R87, R484). -/
def windowOff (b : Block) : Bool := bit (regGet b 0x330004) 5

/-- Is a segment in the pool (R86, R87)? -/
def isPool (b : Block) (k : Nat) : Bool :=
  (decide (32768 ≤ k) || windowOff b) && decide (k ≤ 188415)

/-- The segments of a paddock's HBM space, in order (R92). -/
def padSegs (b : Block) (x : Pad) : List Nat :=
  (match tget none b.hbm.stages x.stage with
    | some g => g.segsW
    | none => []) ++ x.kv

/-- Segments of a paddock's weight section. -/
def weightSegs (b : Block) (x : Pad) : Nat := (padSegs b x).length - x.kv.length

/-- The device address of a paddock address (R91). -/
def hbmAddr (segs : List Nat) (a : Nat) : Option Nat :=
  (segs[a / segBytes]?).map (fun k => k * segBytes + a % segBytes)

/-- `n` bytes of HBM from a device address. -/
def hbytes (b : Block) (a n : Nat) : List Byte := (List.range n).map (fun i => tget 0 b.hbm.mem (a + i))

/-- Writes bytes; units covered whole lose their error mark (R98). -/
def hwrite (b : Block) (a : Nat) (l : List Byte) : Block :=
  let u0 := cdiv a 32
  let u1 := (a + l.length) / 32
  hbmMod b (fun h => { h with
    mem := putBytes h.mem a l,
    err := (List.range (u1 - u0)).foldl (fun m i => tput 0 m (u0 + i) 0) h.err })

/-- Removes what lies in a key range: memory there reads 0. -/
def dropRange {α : Type} (m : Tbl α) (lo hi : Nat) : Tbl α := m.filter (fun e => decide (e.1 < lo) || decide (hi ≤ e.1))

/-- Zeroes device addresses [lo, hi) (R89, R90, R107). -/
def hzero (b : Block) (lo hi : Nat) : Block :=
  hbmMod b (fun h => { h with mem := dropRange h.mem lo hi, err := dropRange h.err (lo / 32) (hi / 32) })

/-- Zeroes a segment. -/
def segZero (b : Block) (k : Nat) : Block := hzero b (k * segBytes) ((k + 1) * segBytes)

/-- Retires a segment: at once where it is free, when it is freed where it is in use (R100). -/
def retireSeg (b : Block) (k cause : Nat) : Block :=
  if b.hbm.retired.any (fun r => r.seg = k) then b
  else
    let inUse := match segGet b k with
      | .stage _ => true
      | .kv _ => true
      | _ => false
    let b := hbmMod b (fun h => { h with retired := h.retired ++ [⟨k, inUse, cause⟩] })
    let b := if inUse then b else segPut b k .retired
    let b := regSet b 0x80054 0 18 b.hbm.retired.length
    raise b (0x44 + 16 * stackOf (k * segBytes)) corrected 0 0 0 0 .none

/-- A freed segment: retired where its retirement is pending, otherwise to be zeroed (R89, R100). -/
def freeSeg (b : Block) (k : Nat) : Block :=
  if b.hbm.retired.any (fun r => decide (r.seg = k) && r.pending) then
    segPut (hbmMod b (fun h => { h with retired := h.retired.map (fun r => if r.seg = k then { r with pending := false } else r) }))
      k .retired
  else segPut b k .dirty

/-- The free zeroed pool segments, ascending (R90, R226). -/
def cleanSegs (b : Block) : List Nat :=
  b.hbm.segs.filterMap (fun e => if decide (e.2 = .clean) && !b.hbm.testing.contains e.1 then some e.1 else none)

/-- Marks a staged image damaged (R97). -/
def damageStage (b : Block) (n : Nat) : Block :=
  hbmMod b (fun h =>
    let g := (tget none h.stages n).map (fun g => { g with damaged := true })
    { h with stages := tput none h.stages n g })

/-- The paddock page an HBM segment's address holds: index within the KV reservation (R105). -/
def kvPage (x : Pad) (a : Nat) : Nat :=
  ((x.kv.idxOf (a / segBytes)) * segBytes + a % segBytes) / 32768

/-- Pages of the control area of a KV reservation (R262). -/
def controlPages (x : Pad) : Nat := 9 + cdiv (x.env.kvReserve / 32768) 8192

/-- An uncorrectable read of HBM (R97, R100): recorded with the class and unit of what the segment
holds, and handled so.  `reader` is the paddock whose pump reads, where one does.  The reserved range stands for Swizen's working
memory and the backing copy, where an error is fatal; for the page tables, the journal, the token log and the prompt store, whose
places the spec does not give, the detector's report names the sessions (log 124). -/
def hbmUe (b : Block) (a : Nat) (reader : Option Nat) : Block :=
  let n := stackOf a
  let src := 0x41 + 16 * n
  let k := a / segBytes
  let b := regSet b (0x80000 + 4 * n) 2 1 1
  let b := match segGet b k with
    | .stage g =>
      let b := damageStage b g
      match reader with
      | some p => padMod (raise b src contained (padD0 p) 0 0 0 (.paddock p)) p (fun x => { x with doomed := true })
      | none => raise b src corrected 0 0 0 0 .none
    | .kv p =>
      let x := padGet b p
      let page := kvPage x a
      let b := raise b src contained (padD0 p) 0 0 0 (.paddock p)
      match tget 0 x.pages page with
      | 0 => b
      | s + 1 => if page < controlPages x then b else padMod b p (fun x => { x with faulted := s :: x.faulted })
    | _ => raise b src (if 188415 < k then fatal else corrected) 0 0 0 0 .none
  if k ≤ 188415 then retireSeg b k 0 else b

/-- A corrected read of HBM (R97, R100). -/
def hbmCe (b : Block) (a : Nat) : Block :=
  let n := stackOf a
  let b := regCount b (0x80000 + 4 * n) 16 16 1
  let b := raise b (0x42 + 16 * n) corrected 0 0 0 0 .none
  match tget 0 b.hbm.ceSeen (a / 32) with
  | 0 => hbmMod b (fun h => { h with ceSeen := tput 0 h.ceSeen (a / 32) (b.time + 1) })
  | t + 1 => if t + 1000000000 ≤ b.time ∧ a / segBytes ≤ 188415 then retireSeg b (a / segBytes) 1 else b

/-- Reads `n` bytes of HBM, 32 B units checked in order; none where one is uncorrectable (R97). -/
def hread (b : Block) (a n : Nat) (reader : Option Nat) : Block × Option (List Byte) :=
  let us := (List.range ((a + n - 1) / 32 + 1 - a / 32)).map (fun i => a / 32 + i)
  match us.find? (fun u => tget 0 b.hbm.err u = 2) with
  | some u => (hbmUe b (32 * u) reader, none)
  | none =>
    let b := us.foldl (fun b u => if tget 0 b.hbm.err u = 1 then
      hbmMod (hbmCe b (32 * u)) (fun h => { h with err := tput 0 h.err u 0 }) else b) b
    (b, some (hbytes b a n))

end Sys2Proof.Machine
end

