-- ==== Sys2Proof/Machine/Mesh.lean ====
section
/-! DEFINITION. The mesh: remote writes and reads, their packets, and the semaphore packets (R54, R60 to
R70, R73, R75, R166 to R168). -/

namespace Sys2Proof.Machine

/-- The team key of paddock-relative (u, v). -/
def relTeam (x : Pad) (u v : Nat) : Nat := (x.col + u) * 59 + (x.row + v)

/-- A core names a destination outside its paddock (R66): the trap, and the contained fault. -/
def outOfPaddock (b : Block) (t : Thr) : Block :=
  let b := raise b 0x109 contained (placeD0 b (coreKey t.core)) 0 0 0 (unitOf b (teamKey t.core.team))
  trapNow b (thrKey t) .meshOutOfPaddock 0

/-- A fault of a remote packet, against the sending paddock (R73, R75, R463). -/
def remoteFault (b : Block) (src p ck line : Nat) : Block :=
  raise b src contained
    (at_ 0 (keyCol (ck / 64)) ||| at_ 7 (physRow b (keyCol (ck / 64)) (keyRow (ck / 64)))
      ||| at_ 13 (ck % 64) ||| at_ 19 p ||| at_ 25 1) (at_ 0 line) 0 0 (.paddock p)

/-- Writes the lines of a remote write, or discards it whole (R73, R75). -/
def remoteWrite (b : Block) (p ck line : Nat) (data : List Line) : Block :=
  if 640 < line + data.length ∨ 640 ≤ line then remoteFault b 0x10A p ck line
  else if line < (coreGet b ck).wB then remoteFault b 0x10B p ck line
  else (data.zipIdx).foldl (fun b e => portWrite b ck (line + e.2) e.1) b

/-- Reads `n` lines for a remote read; none where one is uncorrectable (R81). -/
def remoteLines (ck : Nat) : Nat → Nat → Block → Block × Option (List Line)
  | 0, _, b => (b, some [])
  | n + 1, l, b =>
    match portRead b ck l with
    | (b, none) => (b, none)
    | (b, some v) =>
      match remoteLines ck n (l + 1) b with
      | (b, none) => (b, none)
      | (b, some r) => (b, some (v :: r))

/-- One remote request of a core begins or ends (R63). -/
def addOutstanding (b : Block) (ck : Nat) : Block :=
  coreMod b ck (fun c => { c with outstanding := c.outstanding + 1 })

/-- One remote request has been answered. -/
def subOutstanding (b : Block) (ck : Nat) : Block :=
  coreMod b ck (fun c => { c with outstanding := c.outstanding - 1 })

/-- Delivers the lines of a read response to the requesting core: its register, or its cistern (R62,
R168). -/
def deliverRead (b : Block) (thr : Nat) (back : ReadDest) (data : List Line) : Block :=
  let ck := thr / 4
  match back with
  | .vreg v => coreMod b ck (fun c =>
      { c.wv v (data.headD 0) with await := c.await.erase (thr % 4, v) })
  | .lines l => (data.zipIdx).foldl (fun b e => portWrite b ck (l + e.2) e.1) b

/-- Sends a remote request, or serves it over the team bus where the destination is the core's own team
(R54, R166, R167). -/
def sendRemote (b : Block) (t : Thr) (p team : Nat) (body : MBody) : Block :=
  let ck := coreKey t.core
  let b := addOutstanding b ck
  if team = teamKey t.core.team then
    match body with
    | .write cx line data => subOutstanding (remoteWrite b p (64 * team + cx) line data) ck
    | .readReq cx line n thr back =>
      if 640 < line + n then remoteFault b 0x10A p (64 * team + cx) line
      else
        match remoteLines (64 * team + cx) n line b with
        | (b, some d) => subOutstanding (deliverRead b thr back d) ck
        | (b, none) => b
    | _ => b
  else inject b (packet (.core t.core) (teamOf team) p body)

/-- A mesh instruction: stalled while 16 requests are outstanding (R63); (u, v) must lie in the paddock
(R66); then `k` with the destination's team and the remote word. -/
def meshOp (t : Thr) (x : Fields) (uses : List Nat) (legal : Bool)
    (k : Block → Nat → Nat → Remote → Block) (b : Block) : Block :=
  issue b (thrKey t) uses legal (fun b =>
    let p := padNum b (teamKey t.core.team)
    let y := padGet b p
    let r := remoteOf ((thrGet b (thrKey t)).rs x.a)
    if y.env.width ≤ r.u ∨ y.env.height ≤ r.v then outOfPaddock b t
    else if 16 ≤ (coreGet b (coreKey t.core)).outstanding then stall b (thrKey t)
    else k b p (relTeam y r.u r.v) r)

/-- `RWR`: f lines of the own cistern, from the local line on, as one remote write (R167). -/
def rwrOp (t : Thr) (x : Fields) (b : Block) : Block :=
  meshOp t x [] (decide (x.d = 0) && zeros x.mod 4 && decide (x.imm = 0)) (fun b p team r =>
    let l := fld ((thrGet b (thrKey t)).rs x.b) 0 10
    let n := fld x.mod 0 4 + 1
    if 640 < l + n then trapNow b (thrKey t) .cisternRange (BitVec.ofNat 32 (64 * l))
    else
      match remoteLines (coreKey t.core) n l b with
      | (b, none) => stall b (thrKey t)
      | (b, some d) => advance (sendRemote b t p team (.write r.cx r.line d)) (thrKey t)) b

/-- `RWRV`: vB as a one-line remote write (R167). -/
def rwrvOp (t : Thr) (x : Fields) (b : Block) : Block :=
  meshOp t x [x.b.toNat] (decide (x.d = 0) && decide (x.mod = 0) && decide (x.imm = 0) && isV x.b)
    (fun b p team r =>
      advance (sendRemote b t p team (.write r.cx r.line [(coreGet b (coreKey t.core)).rv x.b.toNat]))
        (thrKey t)) b

/-- `RRD`: f remote lines into the own cistern, which must be scratch (R167, R168).  Where a span both touches a protected line
and runs past line 639, `CISTERN_RANGE` is taken (DESIGN CHOICE, log 34: R168 gives no order). -/
def rrdOp (t : Thr) (x : Fields) (b : Block) : Block :=
  meshOp t x [] (decide (x.d = 0) && zeros x.mod 4 && decide (x.imm = 0)) (fun b p team r =>
    let l := fld ((thrGet b (thrKey t)).rs x.b) 0 10
    let n := fld x.mod 0 4 + 1
    if 640 < l + n then trapNow b (thrKey t) .cisternRange (BitVec.ofNat 32 (64 * l))
    else if l < (coreGet b (coreKey t.core)).wB then
      trapNow b (thrKey t) .cisternProtect (BitVec.ofNat 32 (64 * l))
    else advance (sendRemote b t p team (.readReq r.cx r.line n (thrKey t) (.lines l))) (thrKey t)) b

/-- `RRDV`: one remote line into vD, which awaits the response (R167, R168). -/
def rrdvOp (t : Thr) (x : Fields) (b : Block) : Block :=
  meshOp t x [x.d.toNat] (decide (x.b = 0) && decide (x.mod = 0) && decide (x.imm = 0) && isV x.d)
    (fun b p team r =>
      let b := coreMod b (coreKey t.core) (fun c => { c with await := c.await ++ [(thrKey t % 4, x.d.toNat)] })
      advance (sendRemote b t p team (.readReq r.cx r.line 1 (thrKey t) (.vreg x.d.toNat))) (thrKey t)) b

/-! ### Packets arriving -/

/-- Is a packet addressed to a paddock that discards it: fenced, restoring or free (R232)? -/
def discards (b : Block) (dst : TeamId) : Bool :=
  match padOf b (teamKey dst) with
  | some p => !(padGet b p).st.runs
  | none => true

/-- What the SECDED code of a flit finds where team `k` receives it (R69): a single-bit error is corrected and logged; none
where a double-bit error discards the packet, contained to the paddock that owns the link. -/
def linkCheck (b : Block) (m : MPkt) (k : Nat) (e : Ecc) : Block × Bool :=
  match e with
  | .double => (raise (takeOut b m) (teamSource b k) contained (placeD0 b (64 * k)) 0 0 0 (unitOf b k), false)
  | .single => (raise b (teamSource b k) corrected (placeD0 b (64 * k)) 0 0 0 (unitOf b k), true)
  | .good => (b, true)

/-- The next move of a packet from a source to a team (R62 to R69): `sel` picks the row's type, `eff` is its effect.  A packet on
its way makes one hop; at the destination's router it leaves the mesh, to its effect or, where it addresses a cistern, to wait
for the port (R195); and the port serves it.  A paddock that is fenced, restoring or free discards it (R232). -/
def movePkt (src : MeshSrc) (dst : TeamId) (e : Ecc) (sel : MBody → Bool) (eff : Block → MPkt → Block) (b : Block) : Block :=
  match nextPkt b src dst sel with
  | none => b
  | some m =>
    if m.port then
      if discards b dst then takeOut b m else eff (takeOut b m) m
    else
      match linkCheck (noteGrant b m) m (if m.there then teamKey dst else m.way.getD (m.head + 1) 0) e with
      | (b, false) => b
      | (b, true) =>
        if !m.there then inject (takeOut b m) (m.forward b)
        else if discards b dst then takeOut b m
        else if m.body.port.isSome then inject (takeOut b m) { m with flits := [], port := true }
        else eff (takeOut b m) m

/-- The core that answers: cx of the destination team. -/
def answerer (dst : TeamId) (cx : Nat) : MeshSrc := .core ⟨dst, Fin.ofNat 64 cx⟩

/-- A remote write arrives: its lines are written, and one acknowledgement returns (R62). -/
def writeArrives (src : MeshSrc) (dst : TeamId) (e : Ecc) (b : Block) : Block :=
  movePkt src dst e (fun m => match m with
      | .write _ _ _ => true
      | _ => false) (fun b m =>
    match m.body, m.src with
    | .write cx line data, .core c =>
      let b := remoteWrite b m.pad (64 * teamKey dst + cx) line data
      if line + data.length ≤ 640 ∧ (coreGet b (64 * teamKey dst + cx)).wB ≤ line then
        inject b (packet (answerer dst cx) c.team m.pad (.ack (coreKey c)))
      else b
    | _, _ => b) b

/-- A remote read request arrives: its lines are read and returned (R62, R73). -/
def readArrives (src : MeshSrc) (dst : TeamId) (e : Ecc) (b : Block) : Block :=
  movePkt src dst e (fun m => match m with
      | .readReq _ _ _ _ _ => true
      | _ => false) (fun b m =>
    match m.body, m.src with
    | .readReq cx line n thr back, .core c =>
      let ck := 64 * teamKey dst + cx
      if 640 < line + n then remoteFault b 0x10A m.pad ck line
      else
        match remoteLines ck n line b with
        | (b, some d) => inject b (packet (answerer dst cx) c.team m.pad (.readResp d thr back))
        | (b, none) => b
    | _, _ => b) b

/-- A read response arrives: its lines are delivered, and the count of requests falls (R62, R63). -/
def responseArrives (src : MeshSrc) (dst : TeamId) (e : Ecc) (b : Block) : Block :=
  movePkt src dst e (fun m => match m with
      | .readResp _ _ _ => true
      | _ => false) (fun b m =>
    match m.body with
    | .readResp d thr back => subOutstanding (deliverRead b thr back d) (thr / 4)
    | _ => b) b

/-- A write acknowledgement arrives: the count of requests falls (R62, R63). -/
def ackArrives (src : MeshSrc) (dst : TeamId) (e : Ecc) (b : Block) : Block :=
  movePkt src dst e (fun m => match m with
      | .ack _ => true
      | _ => false) (fun b m =>
    match m.body with
    | .ack ck => subOutstanding b ck
    | _ => b) b

/-- A semaphore packet arrives and is applied or queued (R62, R183, R189). -/
def semArrives (src : MeshSrc) (dst : TeamId) (e : Ecc) (b : Block) : Block :=
  movePkt src dst e (fun m => match m with
      | .sem _ _ _ _ _ => true
      | _ => false) (fun b m =>
    match m.body with
    | .sem op c n vid thr => applySem b op (teamKey dst) c n vid thr true
    | _ => b) b

/-- `RWR` (R167). -/
def execRwr (t : Thr) (x : Fields) (s : State) : Host.Outcome State Fault Refusal := onCore t (.rwr t x) (rwrOp t x) s

/-- `RWRV` (R167). -/
def execRwrv (t : Thr) (x : Fields) (s : State) : Host.Outcome State Fault Refusal := onCore t (.rwrv t x) (rwrvOp t x) s

/-- `RRD` (R168). -/
def execRrd (t : Thr) (x : Fields) (s : State) : Host.Outcome State Fault Refusal := onCore t (.rrd t x) (rrdOp t x) s

/-- `RRDV` (R168). -/
def execRrdv (t : Thr) (x : Fields) (s : State) : Host.Outcome State Fault Refusal := onCore t (.rrdv t x) (rrdvOp t x) s

/-- `MESH_REMOTE_WRITE` (R62). -/
def execMeshRemoteWrite (src : MeshSrc) (dst : TeamId) (e : Ecc) (s : State) :
    Host.Outcome State Fault Refusal := onBlk (writeArrives src dst e) s

/-- `MESH_REMOTE_READ_REQUEST` (R62). -/
def execMeshRemoteReadRequest (src : MeshSrc) (dst : TeamId) (e : Ecc) (s : State) :
    Host.Outcome State Fault Refusal := onBlk (readArrives src dst e) s

/-- `MESH_READ_RESPONSE` (R62). -/
def execMeshReadResponse (src : MeshSrc) (dst : TeamId) (e : Ecc) (s : State) :
    Host.Outcome State Fault Refusal := onBlk (responseArrives src dst e) s

/-- `MESH_WRITE_ACK` (R62). -/
def execMeshWriteAck (src : MeshSrc) (dst : TeamId) (e : Ecc) (s : State) :
    Host.Outcome State Fault Refusal := onBlk (ackArrives src dst e) s

/-- `SEMAPHORE_OPERATION_PACKET` (R183). -/
def execSemaphoreOperationPacket (src : MeshSrc) (dst : TeamId) (e : Ecc) (s : State) :
    Host.Outcome State Fault Refusal := onBlk (semArrives src dst e) s

end Sys2Proof.Machine
end

