-- ==== Sys2Proof/Machine/Pump.lean ====
section
/-! DEFINITION. The pump: `PUMP`, and the completion of the command at the head of a team's queue (R55
to R59, R91 to R93, R169, R170, R194). -/

namespace Sys2Proof.Machine

/-- A pump command as `PUMP` spells it (R169). -/
def pumpCmd (t : Thr) (x : Fields) (h : Thread) : PumpCmd :=
  { dir := fld x.mod 0 2, addr := (h.rs x.a).toNat,
    line := 640 * fld (h.rs x.b) 10 6 + fld (h.rs x.b) 0 10, len := fld x.imm 0 16 + 1,
    vid := fld x.imm 16 12, amount := fld x.imm 28 4, thr := thrKey t, sent := 0 }

/-- The cores a cistern span covers, each with its first and last line there. -/
def spanCores (line len : Nat) : List Nat := (List.range 64).filter (fun c => decide (line < 640 * (c + 1)) && decide (640 * c < line + len))

/-- Does the destination span include a line of a code or read-only region (R75)? -/
def spanProtected (b : Block) (team line len : Nat) : Bool :=
  (spanCores line len).any (fun c =>
    let w := (coreGet b (64 * team + c)).wB
    decide (line < 640 * c + w) && decide (0 < w))

/-- Does an HBM span map no segment somewhere, or write into the weight section (R93)? -/
def spanUnmapped (b : Block) (x : Pad) (c : PumpCmd) : Bool :=
  let segs := padSegs b x
  let lo := 64 * c.addr
  let hi := 64 * (c.addr + c.len)
  decide (segs.length * segBytes < hi) || (decide (c.dir = 1) && decide (lo < weightSegs b x * segBytes))

/-- The first rule that refuses a command, in the order R169, R56, R73, R75, R93 (R170).  R56 never
fails: the encoding of sB names cores of the own team only. -/
def pumpRefusal (b : Block) (t : Thr) (x : Pad) (sb : Word) (c : PumpCmd) : Option Nat :=
  if fld sb 16 16 ≠ 0 then some 169
  else if 640 ≤ fld sb 0 10 ∨ 40960 < c.line + c.len then some 73
  else if c.dir = 0 ∧ spanProtected b (teamKey t.core.team) c.line c.len then some 75
  else if c.dir ≠ 2 ∧ spanUnmapped b x c then some 93
  else none

/-- `PUMP` puts a command into the team's queue; a full queue stalls the thread (R57, R169, R170).  A
sluiced pump is opened (R432).  The command that executes stays at the head of the queue, in one of its 32 places, until it
completes (DESIGN CHOICE, log 117: R57 and R58 do not say whether it keeps its place). -/
def pumpOp (t : Thr) (x : Fields) (b : Block) : Block :=
  issue b (thrKey t) [] (decide (x.d = 0) && zeros x.mod 2 && decide (fld x.mod 0 2 ≠ 3)) (fun b =>
    let h := thrGet b (thrKey t)
    let k := teamKey t.core.team
    let p := padNum b k
    let c := pumpCmd t x h
    match pumpRefusal b t (padGet b p) (h.rs x.b) c with
    | some r => trapNow b (thrKey t) .pumpRefused (BitVec.ofNat 32 r)
    | none =>
      match (if c.amount = 0 then (b, true) else tableCheck b k p c.vid 5 (thrKey t / 4 * 4) c.amount) with
      | (b, false) => stall b (thrKey t)
      | (b, true) =>
        if c.amount ≠ 0 ∧ (translate b p c.vid).isNone then trapNow b (thrKey t) .semUnmapped 0
        else
          let u := pumpGet b k
          if 32 ≤ u.q.length then stall b (thrKey t)
          else advance (pumpPut b k { u with q := u.q ++ [c], sluiced := false }) (thrKey t))

/-- Key of the cistern line that line `l` of a team's span names: core, line (R169). -/
def spanLine (team l : Nat) : Nat × Nat := (64 * team + l / 640, l % 640)

/-- Moves the lines of an HBM command, in order, from line `i` on; stops at a line that is
uncorrectable (R59, R81, R97). -/
def movePump (team p : Nat) (segs : List Nat) (c : PumpCmd) : Nat → Nat → Block → Block × Bool
  | 0, _, b => (b, true)
  | n + 1, i, b =>
    let q := spanLine team (c.line + i)
    match hbmAddr segs (64 * (c.addr + i)) with
    | none => (b, true)
    | some a =>
      if c.dir = 0 then
        match hread b a 64 (some p) with
        | (b, none) => (b, false)
        | (b, some l) => movePump team p segs c n (i + 1) (portWrite b q.1 q.2 (lineOf l))
      else
        match portRead b q.1 q.2 with
        | (b, none) => (b, false)
        | (b, some v) => movePump team p segs c n (i + 1) (hwrite b a (lineBytes v))

/-- The completion add of a command: at the own sync memory, or as a semaphore packet (R58). -/
def completionAdd (b : Block) (team p : Nat) (c : PumpCmd) : Block :=
  if c.amount = 0 then b
  else
    match translate b p c.vid with
    | none => b
    | some e =>
      let k := entTeam (padGet b p) e
      if k = team then applySem b .pumpAdd k e.ctr c.amount c.vid c.thr false
      else inject b (packet (.pump (teamOf team)) (teamOf k) p (.sem .pumpAdd e.ctr c.amount c.vid c.thr))

/-- The pump finishes the command at the head of its queue: its lines are at their destination, then
its completion add is made (R58, R194).  A sampler-bound command finishes when its last line has
arrived (R267).  No effect in a fenced paddock (R59). -/
def pumpComplete (k : TeamId) (b : Block) : Block :=
  let team := teamKey k
  let u := pumpGet b team
  match u.q with
  | [] => b
  | c :: r =>
    match padOf b team with
    | none => b
    | some p =>
      if !(padGet b p).st.runs then b
      else if c.dir = 2 then
        if c.len ≤ c.sent then completionAdd (pumpLeave b team r) team p c else b
      else
        match movePump team p (padSegs b (padGet b p)) c c.len 0 b with
        | (b, true) => completionAdd (pumpLeave b team r) team p c
        | (b, false) => b

/-- `PUMP` (R170). -/
def execPump (t : Thr) (x : Fields) (s : State) : Host.Outcome State Fault Refusal := onCore t (.pump t x) (pumpOp t x) s

/-- `PUMP_COMMAND_COMPLETE` (R58). -/
def execPumpCommandComplete (k : TeamId) (s : State) : Host.Outcome State Fault Refusal :=
  onBlk (pumpComplete k) s

end Sys2Proof.Machine
end

