-- ==== Sys2Proof/Machine/Sampler.lean ====
section
/-! DEFINITION. The sampler: distributions, draws, and the growth and acceptance of candidate trees (R268 to
R272). -/

namespace Sys2Proof.Machine

/-- A processed distribution: the tokens it keeps with their probabilities, in descending probability. -/
structure Dist where
  greedy : Bool
  top : Nat
  cand : List (Nat × Word)
  deriving DecidableEq, Repr

/-- A logit as the sampler takes it: NaN is −∞ (R268). -/
def cleanLogit (w : Word) : Word := if (f32Val w).isNan then 0xFF800000 else w

/-- Puts an entry into a list in descending value, lower token first on a tie. -/
def putDesc (e : Nat × Word) : List (Nat × Word) → List (Nat × Word)
  | [] => [e]
  | x :: r =>
    if f32Lt x.2 e.2 || (!f32Lt e.2 x.2 && decide (e.1 < x.1)) then e :: x :: r else x :: putDesc e r

/-- The `k` highest of a list in token order (R268). -/
def topEntries (k : Nat) (l : List (Nat × Word)) : List (Nat × Word) :=
  l.foldl (fun a e => (putDesc e a).take k) []

/-- The shortest prefix whose sum reaches a bound, and that sum (R268). -/
def prefixTo (bound : Word) : List (Nat × Word) → Word → List (Nat × Word) × Word
  | [], s => ([], s)
  | e :: r, s =>
    let s := f32Add s e.2
    if !f32Lt s bound then ([e], s)
    else
      let q := prefixTo bound r s
      (e :: q.1, q.2)

/-- The exponential of the softmax: exact at 0 and at −∞; elsewhere its FP32 value is the sampler's own (log 11). -/
def expOf (w : Word) : Word :=
  if (f32Val w).isZero then 0x3F800000 else if w = 0xFF800000 then 0 else Config.samplerExp w

/-- The sum of the softmax in FP32, whose order of addition is the sampler's own (log 11); one number is its own sum. -/
def expSum : List Word → Word
  | [e] => e
  | l => Config.samplerSum l

/-- The softmax in FP32 of values from which the maximum has been subtracted (R268). -/
def softmax (l : List Word) : List Word :=
  let e := l.map expOf
  e.map (fun w => f32Div w (expSum e))

/-- The processed distribution of a logit set for a session; none where every logit is −∞ (R268). -/
def process (logits : List Word) (z : Slot) : Option Dist :=
  let l := (logits.map cleanLogit).zipIdx.map (fun e => (e.2, e.1))
  if l.all (fun e => decide (e.2 = 0xFF800000)) then none
  else if (f32Val z.temperature).isZero then
    let t := ((topEntries 1 l).headD (0, 0)).1
    some ⟨true, t, [(t, 0x3F800000)]⟩
  else
    let k := topEntries z.topK l
    let y := k.map (fun e => (e.1, f32Div e.2 z.temperature))
    let m := (y.headD (0, 0)).2
    let p := softmax (y.map (fun e => f32Sub e.2 m))
    let s := (y.zipIdx.map (fun e => (e.1.1, p.getD e.2 0))).foldl (fun a e => putDesc e a) []
    let q := prefixTo z.topP s 0
    let c := q.1.map (fun e => (e.1, f32Div e.2 q.2))
    some ⟨false, (c.headD (0, 0)).1, c⟩

/-- `prob_of`. -/
def Dist.prob (p : Dist) (t : Nat) : Word :=
  match p.cand.find? (fun e => e.1 = t) with
  | some e => e.2
  | none => 0

/-- `zero`. -/
def Dist.zero (p : Dist) (t : Nat) : Dist :=
  { p with cand := p.cand.map (fun e => if e.1 = t then (e.1, 0) else e) }

/-- Three rounds of the mixing of `draw`. -/
def drawMix : Nat → Dword → Dword
  | 0, x => x
  | n + 1, x =>
    let x := (x ^^^ (x >>> 31)) * 0xbf58476d1ce4e5b9
    drawMix n ((x ^^^ (x >>> 29)) * 0x94d049bb133111eb)

/-- `draw` (R269). -/
def drawBits (seed : Dword) (seq k : Nat) : Word :=
  let x := seed ^^^ (BitVec.ofNat 64 seq * 0x9e3779b97f4a7c15) ^^^ (BitVec.ofNat 64 k <<< 48)
  let x := drawMix 3 x
  BitVec.ofNat 32 (x ^^^ (x >>> 32)).toNat

/-- `draw_u` (R269). -/
def drawU (seed : Dword) (seq k : Nat) : Word :=
  BitVec.ofNat 32 (roundVal f32 .nearest true (.fin false ((drawBits seed seq k).toNat / 256) (-24))).1

/-- The walk of `draw_from`: the first token at which the running sum passes `u`, otherwise the last that is not
zeroed. -/
def drawWalk (u : Word) : List (Nat × Word) → Word → Nat → Nat
  | [], _, last => last
  | e :: r, cum, last =>
    if (f32Val e.2).isZero then drawWalk u r cum last
    else
      let cum := f32Add cum e.2
      if f32Lt u cum then e.1 else drawWalk u r cum e.1

/-- `draw_from` (R269). -/
def drawFrom (p : Dist) (mass : Word) (seed : Dword) (seq k : Nat) : Nat :=
  if p.greedy then p.top else drawWalk (f32Mul (drawU seed seq k) mass) p.cand 0 p.top

/-! ### Candidate trees (R270, R271) -/

/-- A candidate child: parent node, token, score. -/
structure Child where
  parent : Nat
  token : Nat
  score : Word
  deriving DecidableEq, Repr

/-- Puts a child into a list in descending score; ties go to the lower parent, then to the lower token. -/
def putChild (e : Child) : List Child → List Child
  | [] => [e]
  | x :: r =>
    if f32Lt x.score e.score
        || (!f32Lt e.score x.score && (decide (e.parent < x.parent) || (decide (e.parent = x.parent) && decide (e.token < x.token))))
    then e :: x :: r else x :: putChild e r

/-- The children of one node: every token its distribution keeps, and the first tokens of probability 0, which can
be needed only to make up the level. -/
def childrenOf (w vocab : Nat) (node : Nat) (score : Word) (p : Dist) : List Child :=
  p.cand.map (fun e => ⟨node, e.1, f32Mul score e.2⟩)
    ++ (((List.range (min vocab (w + p.cand.length))).filter (fun t => !p.cand.any (fun e => e.1 = t))).take w).map
        (fun t => ⟨node, t, f32Mul score 0⟩)

/-- Adds level `l` of `w` nodes to a tree, from the distributions of the nodes of level `l - 1`, given with their
numbers and scores (R270).  The numbers go on from the last node of the tree. -/
def growLevel (tree : List Node) (l w vocab : Nat) (ps : List (Nat × Word × Dist)) : List Node :=
  let all := ps.flatMap (fun e => childrenOf w vocab e.1 e.2.1 e.2.2)
  let best := (all.foldl (fun a e => (putChild e a).take w) [])
  tree ++ best.map (fun c => ⟨c.token, c.parent, l, c.score⟩)

/-- The children of a node, in order: node number and token.  Node `i` of the list has number `i + 1`. -/
def kids (tree : List Node) (node : Nat) : List (Nat × Nat) :=
  tree.zipIdx.filterMap (fun e => if e.1.parent = node then some (e.2 + 1, e.1.token) else none)

/-- The trial of a node's children (R271): the child taken, the distribution and mass left, the draws made. -/
def tryKids (seed : Dword) (seq : Nat) : List (Nat × Nat) → Dist → Word → Nat → Option (Nat × Nat) × Dist × Word × Nat
  | [], p, mass, k => (none, p, mass, k)
  | c :: r, p, mass, k =>
    let pc := p.prob c.2
    let take := if p.greedy then decide (c.2 = p.top) else f32Lt (f32Mul (drawU seed seq k) mass) pc
    let k := if p.greedy then k else k + 1
    if take then (some c, p, mass, k)
    else tryKids seed seq r (p.zero c.2) (f32Sub mass pc) k

/-- What an emission leaves: the tokens emitted with their `END` flags, the nodes accepted, and whether it ended at a set without a
finite logit (R268). -/
structure Emitted where
  toks : List (Nat × Bool)
  path : List Nat
  nan : Bool
  deriving DecidableEq, Repr

/-- Is a token a valid stop token (R272)? -/
def isStop (z : Slot) (t : Nat) : Bool := z.stops.any (fun e => e.2 && decide (e.1 = t))

/-- `accept_tree` (R271, R272): `fuel` bounds the depth, `room` is how many records the turn may still write. -/
def acceptTree (z : Slot) (sets : Nat → List Word) : Nat → Nat → Nat → Nat → Emitted → Emitted
  | 0, _, _, _, e => e
  | fuel + 1, node, seq, room, e =>
    match process (sets node) z with
    | none => { e with nan := true }
    | some p =>
      let r := tryKids z.seed seq (kids z.tree node) p 0x3F800000 0
      let tok := match r.1 with
        | some c => c.2
        | none => drawFrom r.2.1 r.2.2.1 z.seed seq r.2.2.2
      let stop := isStop z tok
      let e := { e with toks := e.toks ++ [(tok, stop)] }
      match r.1 with
      | none => e
      | some c =>
        let e := { e with path := e.path ++ [c.1] }
        if stop || decide (room ≤ 1) then e else acceptTree z sets fuel c.1 (seq + 1) (room - 1) e

/-- A plain draw of one token (R269, R272). -/
def plainToken (z : Slot) (logits : List Word) : Emitted :=
  match process logits z with
  | none => ⟨[], [], true⟩
  | some p =>
    let t := drawFrom p 0x3F800000 z.seed z.nextSeq 0
    ⟨[(t, isStop z t)], [], false⟩

end Sys2Proof.Machine
end

