-- ==== Sys2Proof/Machine/Kv.lean ====
section
/-! DEFINITION. KV pages and page tables (R105 to R107, R262), and the blocks of the prompt store (R250). -/

namespace Sys2Proof.Machine

/-- Pages of a paddock's KV reservation (R105). -/
def kvCount (x : Pad) : Nat := x.env.kvReserve / 32768

/-- The free pages of a KV reservation, ascending: not control pages, not in use (R106, R262). -/
def freePages (x : Pad) : List Nat :=
  (List.range (kvCount x)).filter (fun i => decide (controlPages x ≤ i) && decide (tget 0 x.pages i = 0))

/-- How many pages are free. -/
def freeCount (x : Pad) : Nat := kvCount x - controlPages x - (x.pages.filter (fun e => decide (controlPages x ≤ e.1) && decide (e.1 < kvCount x))).length

/-- The entries of a slot's page table that are in use: entry index and entry (R105). -/
def ptEntries (b : Block) (n : Nat) : List (Nat × Word) :=
  (b.hbm.pt.filter (fun e => decide (e.1 / 65536 = n) && bit e.2 31)).map (fun e => (e.1 % 65536, e.2))

/-- Sets an entry of a slot's page table. -/
def ptPut (b : Block) (n i : Nat) (w : Word) : Block :=
  hbmMod b (fun h => { h with pt := tput 0 h.pt (65536 * n + i) w })

/-- A resident entry, and a spilled one. -/
def ptWord (index : Nat) (spilled : Bool) : Word := at_ 0 index ||| at_ 30 spilled.toNat ||| at_ 31 1

/-- Pages a session holds, resident and spilled. -/
def pagesHeld (b : Block) (n : Nat) : Nat := (ptEntries b n).length

/-- The spilled entries of a session, in order. -/
def spilledEntries (b : Block) (n : Nat) : List (Nat × Word) := (ptEntries b n).filter (fun e => bit e.2 30)

/-- The resident entries of a session, in order. -/
def residentEntries (b : Block) (n : Nat) : List (Nat × Word) := (ptEntries b n).filter (fun e => !bit e.2 30)

/-- The device address of byte 0 of a page of the KV reservation (R91, R92, R105); none past its end. -/
def pageAddr (x : Pad) (i : Nat) : Option Nat := hbmAddr x.kv (32768 * i)

/-- Marks a page as a slot's. -/
def pageTake (b : Block) (p i n : Nat) : Block := padMod b p (fun x => { x with pages := tput 0 x.pages i (n + 1) })

/-- A page returns to the reservation, and is written to zero (R107). -/
def pageReturn (b : Block) (p i : Nat) : Block :=
  let b := match pageAddr (padGet b p) i with
    | some a => hzero b a (a + 32768)
    | none => b
  padMod b p (fun x => { x with pages := tput 0 x.pages i 0 })

/-- Takes `k` further pages for a session, at the end of its table (R106): the lowest free ones (DESIGN CHOICE, log 123). -/
def pagesTake (b : Block) (p n k : Nat) : Block :=
  let i0 := pagesHeld b n
  (((freePages (padGet b p)).take k).zipIdx).foldl (fun b e =>
    ptPut (pageTake b p e.1 n) n (i0 + e.2) (ptWord e.1 false)) b

/-- Returns a spill pool entry (R109, R110). -/
def poolReturn (b : Block) (i : Nat) : Block :=
  hbmMod b (fun h => { h with
    spillFree := h.spillFree ++ h.spillUsed.filter (fun e => e.1 = i),
    spillUsed := h.spillUsed.filter (fun e => e.1 ≠ i) })

/-- Returns every page and pool entry of a session (R107, R110, R246). -/
def pagesReturn (b : Block) (p n : Nat) : Block :=
  let b := (ptEntries b n).foldl (fun b e =>
    if bit e.2 30 then poolReturn b (fld e.2 0 22) else pageReturn b p (fld e.2 0 22)) b
  hbmMod b (fun h => { h with pt := h.pt.filter (fun e => e.1 / 65536 ≠ n) })

/-- The worst-case position of a session with further prompt tokens and records (R106). -/
def worstPos (z : Slot) (more : Nat) : Nat :=
  z.position + z.pending.toNat + (z.turns.map (fun t => (t.prompt.length - t.done) + (t.gen - t.written))).sum + more

/-- Pages that cover a position (R106). -/
def pagesFor (x : Pad) (w : Nat) : Nat := cdiv (w * x.env.kvPerToken) 32768

/-- Writes a page's bytes. -/
def pageWrite (b : Block) (p i : Nat) (l : List Byte) : Block :=
  match pageAddr (padGet b p) i with
  | some a => hwrite b a (padTo 32768 l)
  | none => b

/-- The bytes that the module last wrote to a page of the spill pool. -/
def poolBytes (b : Block) (a : Nat) : List Byte :=
  ((b.out.filterMap (fun o => match o with
    | .spill x d => if x = a then some d else none
    | _ => none)).getLast?).getD []

/-- Reads spilled pages back, in order, each into the lowest free page, up to a poisoned one: the session is then faulted
(R109, R110, R112). -/
def readBackPages (p n : Nat) : List (Nat × Word) → List (Option (List Byte)) → Block → Block
  | _ :: _, none :: _, b => slotMod b n (fun z => { z with st := 4 })
  | e :: es, some l :: ls, b =>
    match freePages (padGet b p) with
    | i :: _ =>
      let b := poolReturn (ptPut (pageTake b p i n) n e.1 (ptWord i false)) (fld e.2 0 22)
      readBackPages p n es ls (pageWrite b p i l)
    | [] => b
  | _, _, b => b

/-- Pages that a further turn needs beyond those its session holds (R106). -/
def growth (b : Block) (n more : Nat) : Nat :=
  let z := slotGet b n
  pagesFor (padGet b z.paddock) (worstPos z more) - pagesHeld b n

/-- Pages of a paddock that turns of other sessions than `n` wait to read back, and to grow by: they were found free when each
turn was checked, and no other turn takes them (R109; DESIGN CHOICE, log 122). -/
def pagesKept (b : Block) (p n : Nat) : Nat :=
  (b.host.pairs.map (fun e => match e.2.reading with
    | some r => if r.slot ≠ n ∧ (slotGet b r.slot).paddock = p ∧ (slotGet b r.slot).st = 3 then
        (spilledEntries b r.slot).length + growth b r.slot (r.prompt.length + r.gen)
      else 0
    | none => 0)).sum

/-- The free pages that session `n` can take. -/
def pagesOpen (b : Block) (p n : Nat) : Nat := freeCount (padGet b p) - pagesKept b p n

/-- The spill of a session stops at this page boundary (R110). -/
def stopSpill (b : Block) (n : Nat) : Block := hbmMod b (fun h => { h with spilling := h.spilling.filter (fun m => m ≠ n) })

/-! ### Prompt store (R250) -/

/-- Blocks of the prompt store in use. -/
def blocksUsed (b : Block) : List Nat :=
  b.sess.slots.flatMap (fun e => e.2.turns.flatMap (fun t => t.blocks))
    ++ b.host.pairs.flatMap (fun e => match e.2.reading with
        | some r => r.blocks
        | none => [])

/-- The lowest `k` free blocks of the 262,144; none where fewer are free. -/
def takeBlocks (b : Block) (k : Nat) : Option (List Nat) :=
  let used := blocksUsed b
  if used.length + k ≤ 262144 then
    some (((List.range (used.length + k)).filter (fun i => !used.contains i)).take k)
  else none

end Sys2Proof.Machine
end

