-- ==== Sys2Proof/Machine/Sessions.lean ====
section
/-! DEFINITION. Sessions: opening and closing, pace classes, reading a turn's prompt, and admission (R241
to R262, R273, R409). -/

namespace Sys2Proof.Machine

/-! ### Readiness (R230, R255, R394, R428) -/

/-- Every unit of a function among the first `n` is ready. -/
def allReady (b : Block) (f n : Nat) : Bool := (List.range n).all (isReady b f)

/-- The scheduler is ready (R428). -/
def schedReady (b : Block) : Bool := isReady b 8 0

/-- Ready, fenced or restoring (R230, R244). -/
def PadState.serves : PadState → Bool
  | .ready => true
  | .fenced => true
  | .restoring => true
  | _ => false

/-- A paddock that `SESSION_OPEN` and `TURN` can name: it serves, and where it was fenced it was ready. -/
def padServes (x : Pad) : Bool :=
  x.st.serves && (decide (x.st = .ready) || decide (x.back = .ready)) && !x.peerDrain

/-- The standby covers a paddock: the active is protected, and the image is not split (R395, R408). -/
def covered (b : Block) (x : Pad) : Bool := isProtected b && !x.env.split

/-- Live values of a pace class: a in µs, b in ns, I in µs, enabled (R248). -/
def paceOf (b : Block) (c : Nat) : Nat × Nat × Nat × Bool := tget (0, 0, 0, false) b.sess.pace c

/-- Is an emergency announced (R253, R450)? -/
def emergency (b : Block) : Bool := b.pwr.causes.any (fun c => c.announced)

/-! ### `SESSION_OPEN` (R244, R245, R290) -/

/-- Candidate widths of a descriptor. -/
def dWidths (d : Line) : List Nat := (List.range 16).map (fun i => dfield d (0x30 + i) 1)

/-- The checks of `SESSION_OPEN`, in order (R244, R303, R394, R409, R428, R479): a status, or the slot number. -/
def openChecks (b : Block) (d : Line) : Nat ⊕ Nat :=
  let x := padGet b (fld d 64 6)
  let spec := bit d (8 * 0x09 + 7)
  let y := padGet b (dfield d 0x09 1 % 64)
  let l := dfield d 0x0B 1
  let w := (dWidths d).take l
  if !schedReady b || !roleServes b then .inl 0x0104
  else
    match (List.range 16384).find? (fun n => (slotGet b n).st = 0) with
    | none => .inl 0x0103
    | some n =>
      if !padServes x || !x.env.logits || (x.env.split && !x.env.sessionPart) || x.env.draft then .inl 0x0104
      else if spec && (!padServes y || !y.env.draft || decide (y.env.vocab ≠ x.env.vocab) || !x.env.target) then .inl 0x0104
      else if !(paceOf b (fld d (8 * 0x0A) 4)).2.2.2 then .inl 0x0104
      else if (rpGet b (fld d (8 * 0x0C) 10)).st = 2 then .inl 0x0104
      else if mirrored b && !covered b x then .inl 0x0104
      else if w.any (fun k => decide (k = 0)) || (dWidths d).any (fun k => decide (16 < k)) || decide (x.env.treeMax < w.sum)
          || (spec && decide (l = 0)) then .inl 0x0101
      else if x.tampered && bit (regGet b 0x60000) 1 then .inl 0x0404
      else .inr n

/-- Corrected sampler values (R245). -/
def fixTemp (w : Word) : Word := if (f32Val w).isNan || f32Lt w 0 then 0 else w
/-- `TOP_K`. -/
def fixTopK (k : Nat) : Nat := if k = 0 ∨ 256 < k then 256 else k
/-- `TOP_P`; 1.0 is 0x3F80_0000. -/
def fixTopP (w : Word) : Word := if (f32Val w).isNan || !f32Lt 0 w || f32Lt 0x3F800000 w then 0x3F800000 else w

/-- The slot that `SESSION_OPEN` fills (R242, R244, R245). -/
def openSlot (b : Block) (d : Line) : Slot :=
  let x := padGet b (fld d 64 6)
  let spec := bit d (8 * 0x09 + 7)
  { Slot.free with
    st := 1, paddock := fld d 64 6, draft := fld d (8 * 0x09) 6, spec := spec, pace := fld d (8 * 0x0A) 4,
    ring := fld d (8 * 0x0C) 10, levels := if spec then dfield d 0x0B 1 else 0,
    seed := BitVec.ofNat 64 (dfield d 0x10 8), temperature := fixTemp (BitVec.ofNat 32 (dfield d 0x18 4)),
    topP := fixTopP (BitVec.ofNat 32 (dfield d 0x1C 4)), topK := fixTopK (dfield d 0x0E 2),
    stops := (List.range 4).map (fun i =>
      let o := 8 * (0x20 + 4 * i)
      (fld d o 18, bit d (o + 31) && decide (fld d o 18 < x.env.vocab))),
    widths := dWidths d, openedT := b.time, node := b.fab.node.getD 0 }

/-- `SESSION_OPEN`. -/
def sessionOpen (q : Nat) (b : Block) : Block :=
  checkDesc b q 0x01 (fun b d =>
    match openChecks b d with
    | .inl s => finishDesc b q d s 0 0
    | .inr n =>
      let b := slotPut b n (openSlot b d)
      let e := cookieComp q (dCookie d) 0 n 0 1 false
      post b (slotItem b n :: compItem e) [e])

/-! ### Closing a session (R246, R237) -/

/-- Closes a session whose turns have closed: pages return, the slot is zero and free, and a waiting
`SESSION_CLOSE` completes. -/
def closeSession (b : Block) (n : Nat) : Block :=
  let z := slotGet b n
  let b := slotPut (pagesReturn b z.paddock n) n Slot.free
  let b := stopSpill b n
  match z.closing with
  | some (q, k) =>
    let e := cookieComp q k 0 n 0 1 true
    post b (slotItem b n :: compItem e) [e]
  | none => b

/-- A session whose accepted turns have all closed and whose output is written. -/
def sessionQuiet (b : Block) (n : Nat) : Bool :=
  let z := slotGet b n
  decide (z.turns = []) && decide (z.held = []) && !heldByPair b n

/-- `SESSION_CLOSE`: the session takes no further turn; a faulted or quarantined slot closes at once. -/
def sessionClose (q : Nat) (b : Block) : Block :=
  checkDesc b q 0x02 (fun b d =>
    let n := fld d 64 14
    let z := slotGet b n
    if !schedReady b || !roleServes b || decide (z.st = 0) || z.closing.isSome then finishDesc b q d 0x0104 n 0
    else
      let b := openDesc (slotPut b n { z with closing := some (q, dCookie d) }) q
      if (decide (z.st = 4) || decide (z.st = 5)) && sessionQuiet b n then closeSession b n else b)

/-- Does a paddock drain, or a fenced one through its restore (R237)? -/
def Pad.drains (x : Pad) : Bool :=
  decide (x.st = .draining) || ((decide (x.st = .fenced) || decide (x.st = .restoring)) && decide (x.back = .draining))

/-- Does an unload close a session at its own step 3 (R237)? -/
def leftToUnload (b : Block) (z : Slot) : Bool :=
  (padGet b z.paddock).drains || (z.spec && (padGet b z.draft).drains)

/-- A closing session's turns have closed (R246); one that an unload closes goes with that unload (R237). -/
def sessionCloseDone (n : Nat) (b : Block) : Block :=
  let z := slotGet b n
  if (z.closing.isSome || z.unloading && !leftToUnload b z) && sessionQuiet b n then closeSession b n else b

/-! ### Reading a turn (R109, R250, R289) -/

/-- The token IDs of a `TURN` held in its descriptor. -/
def inlinePrompt (d : Line) : List Word :=
  (List.range (dfield d 0x0A 2)).map (fun i => BitVec.ofNat 32 (dfield d (0x10 + 4 * i) 4))

/-- Refuses a `TURN`, with its count (R273). -/
def refuseTurn (b : Block) (q : Nat) (cookie slot status : Nat) : Block :=
  let b := if status = 0x0102 then regCount b 0x2D00C 0 32 1
    else if status = 0x0101 then regCount b 0x2D010 0 32 1 else b
  post b [] [cookieComp q cookie status slot 0 2 false]

/-- `TURN`: its prompt is read into the prompt store; a list that cannot be read, or an entry with a reserved
bit, is a failure of form; an announced emergency refuses every turn (R253); a spilled session without free pages for its spilled pages and the turn's growth
refuses it at once. -/
def turnCheck (q : Nat) (list : Option (List Word)) (b : Block) : Block :=
  let k := (rpGet b q).order.headD 0
  checkDesc b q 0x03 (fun b d =>
    let n := fld d 64 14
    let p := dfield d 0x0A 2
    let prompt := if bit d 9 then some (inlinePrompt d) else list.map (fun l => l.take p)
    match prompt with
    | none => if p = 0 then readTurn b d n [] k else finishDesc b q d 0x0105 n 0
    | some l =>
      if l.any (fun w => decide (fld w 18 14 ≠ 0)) then finishDesc b q d 0x0105 n 0 else readTurn b d n l k)
where
  readTurn (b : Block) (d : Line) (n : Nat) (l : List Word) (k : Nat) : Block :=
    let z := slotGet b n
    let g := dfield d 0x0C 2
    let b := stopSpill b n
    let sp := (spilledEntries b n).length
    if emergency b then refuseTurn b q (dCookie d) n 0x0102
    else if z.st = 3 ∧ pagesOpen b z.paddock n < sp + growth b n (l.length + g) then
      refuseTurn b q (dCookie d) n 0x0101
    else
      let blocks := takeBlocks b (cdiv l.length 1024)
      let r : Reading := { slot := n, gen := g, tag := dfield d 4 4, noIrq := bit d 8, prompt := l,
                           blocks := blocks.getD [], short := blocks.isNone, resv := 0, place := k }
      rpMod b q (fun x => { x with reading := some r })

/-! ### Step times (R256 to R258), in units of 1/21 ns: a BASE cycle is 20 of them -/

/-- t_SMP for `s` logit sets. -/
def tSmp (e : Env) (s : Nat) : Nat := 20 * (cdiv s 16 * cdiv e.vocab 64)

/-- S(n, q), with the sampler term for `sets` logit sets; the mirrored pair adds t_MIR (R409). -/
def stepTime (b : Block) (e : Env) (n q sets : Nat) : Nat :=
  21 * (e.stepBase + n * e.stepPer + q * e.prefillNs + 4000 + (if mirrored b then 6000 else 0)) + tSmp e sets

/-- Time that a split part's crossings add: `hops` is the hop count of the path to its peer (R258). -/
def crossTime (x : Pad) : Nat := if x.env.split then 21 * (2 * (x.hops - 1) * 1500) else 0

/-- S(n, q) of a paddock, with what its crossings add (R256, R258). -/
def padTime (b : Block) (x : Pad) (n q sets : Nat) : Nat := stepTime b x.env n q sets + crossTime x

/-- S(n, q), or the round time R(n, q) of a speculative session (R258). -/
def turnTime (b : Block) (z : Slot) (n q : Nat) : Nat :=
  let x := padGet b z.paddock
  if z.spec then
    let y := padGet b z.draft
    let w := z.widths.take z.levels
    ((1 :: w).take z.levels).foldl (fun s k => s + padTime b y (n * k) q (n * k)) 0
      + padTime b x n q (n * (1 + w.sum))
  else padTime b x n q n

/-- The prefill time per token that Q divides by (R257, R258). -/
def prefillNs (b : Block) (z : Slot) : Nat :=
  (padGet b z.paddock).env.prefillNs + (if z.spec then z.levels * (padGet b z.draft).env.prefillNs else 0)

/-- What the step-time tests need of an admitted turn (R257, R261): r, D1, unprefilled prompt tokens, and whether
it awaits its first record with P = 0. -/
structure TurnRow where
  start : Nat
  d1 : Nat
  left : Nat
  first : Bool
  interval : Nat
  deriving DecidableEq, Repr

/-- The rows of one session's turns, in order; a pending token counts as a further prompt token (R261). -/
def turnRows : List Turn → Nat → Bool → List TurnRow
  | [], _, _ => []
  | t :: r, start, pend =>
    let own := t.prompt.length - t.done
    let left := if 0 < own ∧ pend then own + 1 else own
    let pend' := if t.prompt.length = 0 then (pend || decide (1 ≤ t.gen)) else decide (1 ≤ t.gen)
    ⟨start, t.firstDl, left, decide (t.prompt.length = 0) && decide (1 ≤ t.gen) && decide (t.written = 0), t.interval⟩
      :: turnRows r t.cdl pend'

/-- The slots with admitted work on a paddock, as its own or as its draft (R255). -/
def workingSlots (b : Block) (p : Nat) (draft : Bool) : List Nat :=
  (b.sess.slots.filter (fun e => decide (e.2.turns ≠ [])
    && (decide (e.2.paddock = p) || (draft && e.2.spec && decide (e.2.draft = p))))).map (·.1)

/-- The numbers of the step-time tests: I_min in ns, T_gen, Q, S_max (R257). -/
def stepNumbers (b : Block) (z : Slot) (n : Nat) (rows : List TurnRow) : Nat × Nat × Nat × Nat :=
  let imin := 1000 * (rows.map (fun r => r.interval)).foldl min (2 ^ 20)
  let tgen := turnTime b z n 0
  let q := (21 * (imin - 1000) - tgen) / (21 * prefillNs b z)
  (imin, tgen, q, turnTime b z n q)

/-- The step-time tests A, B1, B2 and B3, and the rebuild test of a mirrored pair (R257, R409). -/
def stepTests (b : Block) (z : Slot) (n : Nat) (rows : List TurnRow) : Bool :=
  let v := stepNumbers b z n rows
  let imin := v.1
  let tgen := v.2.1
  let q := v.2.2.1
  let e := (padGet b z.paddock).env
  let fill := rows.any (fun r => decide (0 < r.left))
  let smax := if fill then v.2.2.2 else tgen
  let c := fun (r : TurnRow) => ((rows.filter (fun s => decide (s.d1 ≤ r.d1))).map (fun s => s.left)).sum
  decide (1000 ≤ imin) && decide (tgen ≤ 21 * (imin - 1000))
    && (!fill || decide (1 ≤ q))
    && rows.all (fun r => decide (r.left = 0) || decide (21 * r.start + (1 + cdiv (c r) q) * smax ≤ 21 * r.d1))
    && rows.all (fun r => !r.first || decide (21 * r.start + 2 * smax ≤ 21 * r.d1))
    && (!mirrored b || decide (e.stepBase + n * e.stepPer + 64 * n * e.prefillNs + 4000 ≤ 20000000))

/-! ### Admission (R251, R255) -/

/-- Will a session hold a pending token once its accepted turns have closed (R261)? -/
def pendingAfter (z : Slot) : Bool :=
  z.turns.foldl (fun p t => decide (1 ≤ t.gen) || (p && decide (t.prompt = []))) z.pending

/-- Check 1 of R255: the status of a refusal, 0 where it passes; an announced emergency comes before every other ground (R253). -/
def admitReady (b : Block) (r : Reading) : Nat :=
  let z := slotGet b r.slot
  let x := padGet b z.paddock
  if emergency b then 0x0102
  else if !roleServes b || decide (z.st = 0) || decide (z.st = 4) || decide (z.st = 5) || z.closing.isSome || z.unloading
      || !padServes x || (z.spec && !padServes (padGet b z.draft)) || !schedReady b || !allReady b 2 8
      || !allReady b 3 4 || !(paceOf b z.pace).2.2.2 || decide ((rpGet b z.ring).st = 2)
      || (mirrored b && !covered b x) || (decide (r.prompt = []) && decide (1 ≤ r.gen) && !pendingAfter z) then 0x0104
  else 0

/-- Check 2 of R255 but for the fabric reservation; a split part's turns need a transport flow of the paddock. -/
def admitRoom (b : Block) (r : Reading) : Bool :=
  let z := slotGet b r.slot
  let x := padGet b z.paddock
  let w := worstPos z (r.prompt.length + r.gen)
  let fits := fun p => decide (((workingSlots b p true).filter (fun m => m ≠ r.slot)).length + 1 ≤ (padGet b p).env.maxBatch)
  decide (z.turns.length < 4) && r.prompt.all (fun t => decide (fld t 0 18 < x.env.vocab)) && fits z.paddock
    && (!z.spec || fits z.draft) && decide (pagesFor x w ≤ 65536)
    && decide (growth b r.slot (r.prompt.length + r.gen) ≤ pagesOpen b z.paddock r.slot) && !r.short
    && (!x.env.split || decide (x.flows ≠ []))

/-- The turn that admission accepts (R251). -/
def newTurn (b : Block) (q : Nat) (r : Reading) : Turn :=
  let z := slotGet b r.slot
  let x := padGet b z.paddock
  let v := paceOf b z.pace
  let e := match z.turns.getLast? with
    | some t => t.cdl
    | none => b.time
  let d1 := max b.time e + 1000 * v.1 + v.2.1 * r.prompt.length
  let late := !decide (x.st = .ready) || (z.spec && !decide ((padGet b z.draft).st = .ready))
  { acceptT := b.time, firstDl := d1, interval := v.2.2.1, running := decide (z.turns = []), suspended := late,
    tampered := x.tampered || (z.spec && (padGet b z.draft).tampered), tries := 0, blocks := r.blocks, prompt := r.prompt, done := 0, begun := false,
    gen := r.gen, written := 0, lastSeq := none, tag := r.tag, pair := q, noIrq := r.noIrq,
    cdl := d1 + (r.gen - 1) * (1000 * v.2.2.1), bound := d1, replay := false, ended := none }

/-- The rows of every admitted turn of the paddock, with the new turn's. -/
def admitRows (b : Block) (r : Reading) (t : Turn) : List TurnRow :=
  let z := slotGet b r.slot
  let others := (workingSlots b z.paddock false).filter (fun m => m ≠ r.slot)
  others.flatMap (fun m => turnRows (slotGet b m).turns b.time (slotGet b m).pending)
    ++ turnRows (z.turns ++ [t]) b.time z.pending

/-- Sessions with admitted work on the paddock, the new turn's included. -/
def admitCount (b : Block) (r : Reading) : Nat :=
  ((workingSlots b (slotGet b r.slot).paddock false).filter (fun m => m ≠ r.slot)).length + 1

/-- The reservation of a split part's path, in 0.1 GB/s (R385). -/
def pathRate (b : Block) (r : Reading) (t : Turn) : Nat :=
  let z := slotGet b r.slot
  let n := admitCount b r
  let v := stepNumbers b z n (admitRows b r t)
  cdiv (16384 * (n + v.2.2.1) * 210) v.2.1

/-- The rate that the accepted turns of a split part's sessions need (R385, R386). -/
def workRate (b : Block) (p : Nat) : Nat :=
  match workingSlots b p false with
  | [] => 0
  | m :: r =>
    let rows := (m :: r).flatMap (fun m => turnRows (slotGet b m).turns b.time (slotGet b m).pending)
    let v := stepNumbers b (slotGet b m) (r.length + 1) rows
    cdiv (16384 * (r.length + 1 + v.2.2.1) * 210) v.2.1

/-- The rate a flow holds on this module's own port of its path (R386). -/
def heldRate (b : Block) (flow : Nat) : Nat :=
  match b.fab.resv.find? (fun e => decide (e.flow = flow) && decide (e.src = b.fab.node.getD 0)) with
  | some e => e.rate
  | none => 0

/-- Accepts a turn: it claims its pages and its entry, and `ACCEPTED` is written (R106, R251, R255, R295). -/
def acceptTurn (b : Block) (q : Nat) (r : Reading) : Block :=
  let z := slotGet b r.slot
  let t := newTurn b q r
  let g := growth b r.slot (r.prompt.length + r.gen)
  let b := pagesTake b z.paddock r.slot g
  let b := slotMod b r.slot (fun z => { z with turns := z.turns ++ [t], st := 2 })
  let b := regCount b 0x2D008 0 32 1
  let e : Entry := .comp q r.tag 0x0001 3 0 r.slot
    ((t.firstDl - b.time) % 2 ^ 48 + 2 ^ 48 * ((t.cdl - b.time) % 2 ^ 48) + 2 ^ 96 * (t.interval % 2 ^ 17)) r.noIrq 1 false
  let pr : MirrorItem := ⟨4, r.slot, BitVec.ofNat 64 ((z.oldest + z.turns.length) % 4), r.prompt.flatMap (fun w => bytesOf 4 w.toNat)⟩
  let b := post b (slotItem b r.slot :: pr :: compItem e) [e]
  if (padGet b z.paddock).dead || (z.spec && (padGet b z.draft).dead) then faultSession b r.slot else b

/-- A turn that was granted a path is refused: the path's reservation goes back to what the accepted turns need (R255). -/
def unclaimPath (b : Block) (r : Reading) : Block :=
  let p := (slotGet b r.slot).paddock
  let x := padGet b p
  if r.resv = 2 ∧ workRate b p < heldRate b (x.flows.headD 0) then resvAsk b 545 (x.flows.headD 0) x.peer (workRate b p) else b

/-- Do two sessions use a common paddock? -/
def sharePad (z y : Slot) : Bool :=
  let ps := fun (s : Slot) => if s.spec then [s.paddock, s.draft] else [s.paddock]
  (ps z).any (fun p => (ps y).contains p)

/-- Has every `TURN` of a paddock of a session that was fetched before place `k` been decided (R255)? -/
def turnsFirst (b : Block) (z : Slot) (k : Nat) : Bool :=
  b.host.pairs.all (fun e =>
    e.2.reading.all (fun r => decide (k ≤ r.place) || !sharePad z (slotGet b r.slot))
      && e.2.queue.all (fun d => decide (k ≤ d.2) || decide (dType d.1 ≠ 0x03) || !sharePad z (slotGet b (fld d.1 64 14))))

/-- The admission of the turn a pair has read, in the order of fetching of its paddock's turns (R255): refused, accepted, or
waiting for its path. -/
def admitTurn (b : Block) (q : Nat) (r : Reading) : Block :=
  let cookie := r.tag + 2 ^ 32 * 3 + 2 ^ 40 * r.noIrq.toNat
  let refuse := fun (b : Block) (st : Nat) =>
    settle (unclaimPath (refuseTurn (rpMod b q (fun x => { x with reading := none })) q cookie r.slot st) r) q
  let z := slotGet b r.slot
  let x := padGet b z.paddock
  let t := newTurn b q r
  let need := if x.env.split then pathRate b r t else 0
  let f := x.flows.headD 0
  if !turnsFirst b z r.place then b
  else if admitReady b r ≠ 0 then refuse b (admitReady b r)
  else if !admitRoom b r || decide (r.resv = 3) then refuse b 0x0101
  else if x.env.split && decide (heldRate b f < need) && decide (r.resv = 0) then
    resvAsk (rpMod b q (fun x => { x with reading := some { r with resv := 1 } })) 544 f x.peer need
  else if r.resv = 1 then b
  else if !stepTests b z (admitCount b r) (admitRows b r t) then refuse b 0x0102
  else settle (acceptTurn (rpMod b q (fun x => { x with reading := none })) q r) q

/-- `TURN_ADMISSION`: pages of a spilled session arrive, in the order of its page table, none for one that is poisoned; after
the last of them admission runs (R109, R110, R255). -/
def turnAdmission (q : Nat) (pages : List (Option (List Byte))) (b : Block) : Block :=
  match (rpGet b q).reading with
  | none => b
  | some r =>
    let z := slotGet b r.slot
    if z.st = 3 then
      let b := readBackPages z.paddock r.slot (spilledEntries b r.slot) pages b
      if (slotGet b r.slot).st = 4 then
        let b := rpMod b q (fun x => { x with reading := none })
        settle (post b [slotItem b r.slot]
          [.comp q r.tag 0x0402 3 1 r.slot noSeq r.noIrq 2 false]) q
      else if spilledEntries b r.slot ≠ [] then b
      else admitTurn (slotMod b r.slot (fun z => { z with st := 1 })) q r
    else admitTurn b q r

/-! ### Pace classes and inspection (R248, R249, R273) -/

/-- Applies one class: its staged values go live where they are in range. -/
def paceOne (b : Block) (c : Nat) : Block × Bool :=
  let a := regFld b (0x2C000 + 16 * c) 0 20
  let n := regFld b (0x2C004 + 16 * c) 0 16
  let i := regFld b (0x2C008 + 16 * c) 0 17
  let on := bit (regGet b (0x2C008 + 16 * c)) 31
  if 10 ≤ a ∧ a ≤ 1000000 ∧ 20 ≤ i ∧ i ≤ 100000 then
    ({ b with sess := { b.sess with pace := tput (0, 0, 0, false) b.sess.pace c (a, n, i, on) } }, true)
  else (b, false)

/-- A write to `PACE_APPLY`. -/
def paceApply (w : Word) (b : Block) : Block :=
  if !actServed b then b
  else
    let r := (List.range 16).foldl (fun (r : Block × Bool) c =>
      if bit w c then
        let s := paceOne r.1 c
        (s.1, r.2 && s.2)
      else r) (b, true)
    regSet r.1 0x2C100 16 1 (!r.2).toNat

/-- A write to `SESS_SEL` captures a slot. -/
def sessSel (w : Word) (b : Block) : Block :=
  if !writeServed b then b
  else
    let b := regStore b 0x2D000 0x2D000 w
    let n := fld w 0 14
    { b with sess := { b.sess with captured := slotBytes n (slotGet b n) } }

/-! ### Meanings -/

/-- `SESSION_OPEN` (R244). -/
def execSessionOpen (q : Fin 1024) (s : State) : Host.Outcome State Fault Refusal := onBlk (sessionOpen q.val) s

/-- `SESSION_CLOSE` (R246). -/
def execSessionClose (q : Fin 1024) (s : State) : Host.Outcome State Fault Refusal := onBlk (sessionClose q.val) s

/-- `SESSION_CLOSE_DONE` (R246). -/
def execSessionCloseDone (n : Fin 16384) (s : State) : Host.Outcome State Fault Refusal :=
  onBlk (sessionCloseDone n.val) s

/-- `TURN` (R250). -/
def execTurn (q : Fin 1024) (prompt : Option (List Word)) (s : State) : Host.Outcome State Fault Refusal :=
  onBlk (turnCheck q.val prompt) s

/-- `TURN_ADMISSION` (R255). -/
def execTurnAdmission (q : Fin 1024) (pages : List (Option (List Byte))) (s : State) :
    Host.Outcome State Fault Refusal :=
  onBlk (turnAdmission q.val pages) s

/-- `PACE_APPLY` (R248). -/
def execPaceApply (w : Word) (s : State) : Host.Outcome State Fault Refusal := onBlk (paceApply w) s

/-- `SESS_SEL_CAPTURE` (R273). -/
def execSessSelCapture (w : Word) (s : State) : Host.Outcome State Fault Refusal := onBlk (sessSel w) s

end Sys2Proof.Machine
end

