-- ==== Sys2Proof/Machine/Steps.lean ====
section
/-! DEFINITION. Steps: forming the micro-batch, the step block, the release, the sampler's input and the commit
(R180, R181, R260 to R272, R403, R406). -/

namespace Sys2Proof.Machine

/-! ### The micro-batch (R260, R261, R264) -/

/-- The running turn of a slot, where its steps can go on. -/
def liveTurn (z : Slot) : Option Turn :=
  match z.turns with
  | t :: _ => if t.running && t.ended.isNone && decide (z.held = []) && decide (z.st = 2) then some t else none
  | [] => none

/-- Does a session take part in micro-batches: its result ring is enabled, and its running turn's `ACCEPTED` has been written
again after a reset (R304, R306)?  The host holds the rest of its output until then. -/
def inBatch (b : Block) (z : Slot) : Bool :=
  decide ((rpGet b z.ring).st ≠ 0) && !(z.turns.head?.any (·.replay))

/-- Prompt tokens of a turn not yet prefilled. -/
def Turn.left (t : Turn) : Nat := t.prompt.length - t.done

/-- Is the turn one that runs no step (R261)? -/
def Turn.empty (t : Turn) : Bool := decide (t.prompt = []) && decide (t.gen = 0)

/-- The turns of a paddock that run no step close at its step boundary (R261). -/
def closeEmpty (b : Block) (p : Nat) : Block :=
  (b.sess.slots.map (·.1)).foldl (fun b n =>
    let z := slotGet b n
    if z.paddock = p ∧ ((liveTurn z).any Turn.empty) then endTurn b n 0 else b) b

/-- The slots whose turn takes part in the next step of paddock `p`: as its own paddock, once a speculative
session's draft has finished its levels; as its draft before that. -/
def stepSlots (b : Block) (p : Nat) : List Nat :=
  (b.sess.slots.filter (fun e =>
    let z := e.2
    (liveTurn z).any (fun t => !t.empty) && inBatch b z
      && ((decide (z.paddock = p) && (!z.spec || decide (z.levels ≤ z.level)))
        || (z.spec && decide (z.draft = p) && decide (z.level < z.levels))))).map (·.1)

/-- The first chunk given to the earliest deadline: order of D1 (R260). -/
def byDeadline (b : Block) : List Nat → List Nat :=
  fun l => l.foldl (fun a n => ins n a) []
where
  ins (n : Nat) : List Nat → List Nat
    | [] => [n]
    | m :: r =>
      let d := fun k => match (slotGet b k).turns with
        | t :: _ => t.firstDl
        | [] => 0
      if d n < d m then n :: m :: r else m :: ins n r

/-- Q of R257 for a paddock's sessions. -/
def chunkBudget (b : Block) (n : Nat) : Nat :=
  let z := slotGet b n
  let w := workingSlots b z.paddock false
  (stepNumbers b z w.length (w.flatMap (fun m => turnRows (slotGet b m).turns b.time (slotGet b m).pending))).2.2.1

/-- Nodes of a level of a tree, with their numbers; level 0 is the root. -/
def levelNodes (z : Slot) (l : Nat) : List (Nat × Node) :=
  if l = 0 then [(0, ⟨z.lastToken, 0, 0, 0x3F800000⟩)]
  else z.tree.zipIdx.filterMap (fun e => if e.1.level = l then some (e.2 + 1, e.1) else none)

/-- One entry of the micro-batch, and the chunk budget left; none where no budget is left for its chunk. -/
def makePart (b : Block) (n q : Nat) (draft : Bool) (l base : Nat) : Option Part × Nat :=
  let z := slotGet b n
  match z.turns with
  | [] => (none, q)
  | t :: _ =>
    if 0 < t.left then
      let need := t.left + z.pending.toNat
      let size := if z.spec && !draft then min need z.drafted else min need q
      if size = 0 then (none, q)
      else
        let chunk := size - z.pending.toNat
        let sets := if !draft && decide (t.done + chunk = t.prompt.length) && decide (1 ≤ t.gen) then 1 else 0
        (some ⟨n, 1, z.pending, chunk, decide (sets = 0), sets, base⟩, if z.spec && !draft then q else q - size)
    else if draft then (some ⟨n, 3, decide (l = 1), 0, false, (levelNodes z (l - 1)).length, base⟩, q)
    else if z.spec then (some ⟨n, 2, true, 0, false, 1 + z.tree.length, base⟩, q)
    else (some ⟨n, 0, true, 0, false, 1, base⟩, q)

/-- The entries of a micro-batch, in order, with logit sets numbered from 0. -/
def makeParts (b : Block) (draft : Bool) (l : Nat) : List Nat → Nat → Nat → List Part
  | [], _, _ => []
  | n :: r, q, base =>
    match makePart b n q draft l base with
    | (some e, q) => e :: makeParts b draft l r q (base + e.sets)
    | (none, q) => makeParts b draft l r q base

/-- The next step of paddock `p`, in kind, level and entries. -/
def formStep (b : Block) (p : Nat) : Step :=
  let x := padGet b p
  let all := byDeadline b (stepSlots b p)
  let draft := x.env.draft
  let l := if draft then (all.map (fun n => (slotGet b n).level + 1)).foldl min 17 else 0
  let ns := if draft then all.filter (fun n => decide ((slotGet b n).level + 1 = l)) else all
  let q := match ns.find? (fun n => (slotGet b n).turns.any (fun t => decide (0 < t.left))) with
    | some n => chunkBudget b n
    | none => 0
  let parts := makeParts b draft l (ns.take x.env.maxBatch) q 0
  { num := x.stepNum + 1, kind := if draft then 1 else if parts.any (fun e => e.kind = 2) then 2 else 0,
    level := l % 17, parts := parts, sets := (parts.map (fun e => e.sets)).sum, lines := [], ended := false, going := false }

/-- An interrupted step's entries whose turns are still there, with their logit sets numbered again. -/
def keepParts (b : Block) : List Part → Nat → List Part
  | [], _ => []
  | e :: r, base =>
    if (liveTurn (slotGet b e.slot)).isSome && inBatch b (slotGet b e.slot) then { e with base := base } :: keepParts b r (base + e.sets)
    else keepParts b r base

/-- The step that starts now: the interrupted one again, or a new one. -/
def nextStep (b : Block) (p : Nat) : Step :=
  match (padGet b p).step with
  | some s =>
    let parts := keepParts b s.parts 0
    if parts.isEmpty then formStep b p
    else { s with parts := parts, sets := (parts.map (fun e => e.sets)).sum, lines := [], ended := false }
  | none => formStep b p

/-! ### The step block (R262, R263) -/

/-- The tokens of an entry: token and parent node. -/
def partTokens (b : Block) (s : Step) (e : Part) : List (Nat × Nat) :=
  let z := slotGet b e.slot
  let pend := if e.pend then [(z.lastToken, 0)] else []
  match e.kind with
  | 1 =>
    match z.turns with
    | t :: _ => pend ++ ((t.prompt.drop t.done).take e.chunk).map (fun w => (fld w 0 18, 0))
    | [] => pend
  | 2 => pend ++ z.tree.map (fun c => (c.token, c.parent))
  | 3 => (levelNodes z (s.level - 1)).map (fun c => (c.2.token, c.2.parent))
  | _ => pend

/-- The position of an entry's first token. -/
def partPos (z : Slot) (s : Step) (e : Part) : Nat :=
  if e.kind = 3 ∧ 2 ≤ s.level then z.position + ((levelNodes z (s.level - 1)).headD (1, ⟨0, 0, 0, 0⟩)).1 else z.position

/-- Page map entries of a span of positions: the page indices of the session's pages, in order. -/
def partPages (b : Block) (n upto : Nat) : List Nat :=
  let z := slotGet b n
  ((ptEntries b n).take (pagesFor (padGet b z.paddock) upto)).map (fun e => fld e.2 0 22)

/-- The 32 B of a step entry. -/
def entryBytes (z : Slot) (s : Step) (e : Part) (ntok toff poff npg : Nat) : List Byte :=
  let first := match z.turns with
    | t :: _ => decide (e.kind = 1) && !t.begun
    | [] => false
  bytesOf 2 e.slot ++ bytesOf 1 e.kind ++ bytesOf 1 ((decide (0 < e.sets)).toNat + 2 * first.toNat + 4 * e.forced.toNat)
    ++ bytesOf 4 (partPos z s e) ++ bytesOf 4 ntok ++ bytesOf 4 toff ++ bytesOf 4 poff ++ bytesOf 4 npg ++ bytesOf 4 e.base
    ++ bytesOf 4 (if e.kind = 2 ∨ e.kind = 3 then z.prevPath else 0)

/-- Writes bytes of the control area, which lie in one page. -/
def ctlWrite (x : Pad) (b : Block) (off : Nat) (l : List Byte) : Block :=
  match pageAddr x (off / 32768) with
  | some a => hwrite b (a + off % 32768) l
  | none => b

/-- Writes a list of words of the control area. -/
def ctlWords (x : Pad) (b : Block) (off : Nat) (l : List Nat) : Block :=
  (l.zipIdx).foldl (fun b e => ctlWrite x b (off + 4 * e.2) (bytesOf 4 e.1)) b

/-- Writes the entries of a step with their tokens and pages: `j` counts entries, `tokenAt` and `po` the lists. -/
def writeParts (x : Pad) (s : Step) : List Part → Nat → Nat → Nat → Block → Block × Nat
  | [], _, tokenAt, _, b => (b, tokenAt)
  | e :: r, j, tokenAt, po, b =>
    let z := slotGet b e.slot
    let ts := partTokens b s e
    let ps := partPages b e.slot (partPos z s e + ts.length)
    let b := ctlWrite x b (0x40 + 32 * j) (entryBytes z s e ts.length tokenAt po ps.length)
    let b := ctlWords x b (0x28000 + 4 * tokenAt) (ts.map (fun t => t.1 + 2 ^ 18 * t.2))
    let b := ctlWords x b (0x48000 + 4 * po) ps
    writeParts x s r (j + 1) (tokenAt + ts.length) (po + ps.length) b

/-- Writes the step block. -/
def writeBlock (b : Block) (p : Nat) (s : Step) : Block :=
  let x := padGet b p
  let r := writeParts x s s.parts 0 0 0 b
  ctlWrite x r.1 0 (bytesOf 8 s.num ++ bytesOf 4 s.parts.length ++ bytesOf 4 r.2 ++ bytesOf 4 s.sets ++ bytesOf 1 s.kind
    ++ bytesOf 1 s.level ++ bytesOf 2 0 ++ bytesOf 8 b.time ++ List.replicate 32 0)

/-! ### The start of a step (R180) -/

/-- Do the declared threads wait at the step barrier for the scheduler's arrival? -/
def atBarrier (x : Pad) : Bool := decide ((x.bar 0).need ≠ 0) && decide ((x.bar 0).openCount + 1 = (x.bar 0).need)

/-- May a step start: the paddock runs, its scheduler is ready and holds the reins, nothing is in progress, and
there is work; the part of a split without sessions steps with its peer. -/
def stepReady (b : Block) (p : Nat) : Bool :=
  let x := padGet b p
  (decide (x.st = .ready) || decide (x.st = .draining)) && schedReady b && roleServes b && !b.flt.fatal && atBarrier x
    && x.step.all (fun s => !s.going) && (!(nextStep b p).parts.isEmpty || (x.env.split && !x.env.sessionPart))

/-- A path's reservation is lowered at the first step boundary after a turn's closing completion (R386). -/
def lowerPath (b : Block) (p : Nat) : Block :=
  let x := padGet b p
  match x.flows with
  | f :: _ =>
    if x.env.split && x.env.sessionPart && decide (workRate b p < heldRate b f) && x.step.isNone then
      resvAsk b 545 f x.peer (workRate b p)
    else b
  | [] => b

/-- The scheduler starts the next step of a paddock: it writes the step block and arrives at barrier 0. -/
def stepStart (p : Nat) (b : Block) : Block :=
  let x := padGet b p
  let b := if x.st.runs ∧ x.step = none then lowerPath (closeEmpty b p) p else b
  if stepReady b p then
    let s := nextStep b p
    let b := if x.step.isSome then s.parts.foldl (fun b e => turnMod b e.slot (fun t => { t with tries := t.tries + 1 })) b else b
    let b := writeBlock b p s
    let b := padMod b p (fun x => { x with step := some { s with going := true } })
    let b := closeRound (padMod b p (fun x => x.setBar 0 ((x.bar 0).count (x.bar 0).opened))) p 0
    padMod b p (fun x => { x with bar0 := x.bar 0, rounds0 := x.rounds })
  else b

/-! ### Sampler input (R267) -/

/-- The next line of the sampler-bound command at the head of a team's pump arrives.  The sampler has read its input when the
step ends (R181): a line after that adds nothing. -/
def samplerLine (k : TeamId) (b : Block) : Block :=
  let team := teamKey k
  match (pumpGet b team).q, padOf b team with
  | c :: r, some p =>
    if c.dir ≠ 2 ∨ c.len ≤ c.sent ∨ !(padGet b p).st.runs then b
    else
      let g := spanLine team (c.line + c.sent)
      match portRead b g.1 g.2 with
      | (b, none) => b
      | (b, some v) =>
        let b := pumpPut b team { pumpGet b team with q := { c with sent := c.sent + 1 } :: r }
        let x := padGet b p
        let m := c.addr + c.sent
        match x.step with
        | none => badInput b p
        | some s =>
          if s.sets * setLines x ≤ m ∨ (tget none s.lines m).isSome then badInput b p
          else if s.ended then b
          else padPut b p { x with step := some { s with lines := tput none s.lines m (some v) } }
  | _, _ => b

/-- The logits of set `m` of a step. -/
def setLogits (x : Pad) (s : Step) (m : Nat) : List Word :=
  ((List.range (setLines x)).flatMap (fun i =>
    let v := (tget none s.lines (m * setLines x + i)).getD 0
    (List.range 16).map (fun j => BitVec.ofNat 32 (fld v (32 * j) 32)))).take x.env.vocab

/-! ### Commit (R265 to R272) -/

/-- What an entry's commit yields: the slot after it, the entries to write, and whether the sampler met a set without a finite
logit, which ends the session's part of the commit (R265, R268). -/
def commitPart (b : Block) (x : Pad) (s : Step) (e : Part) : Slot × List Entry × Bool :=
  let z := slotGet b e.slot
  match z.turns with
  | [] => (z, [], false)
  | t :: r =>
    let sets := fun m => setLogits x s (e.base + m)
    match e.kind with
    | 3 =>
      let l := s.level
      let ps := (levelNodes z (l - 1)).zipIdx.map (fun c => (c.1.1, c.1.2.score, process (sets c.2) z))
      if ps.any (fun c => c.2.2.isNone) then (z, [], true)
      else
        let qs := ps.filterMap (fun c => c.2.2.map (fun d => (c.1, c.2.1, d)))
        let old := if l = 1 then [] else z.tree
        ({ z with tree := growLevel old l (z.widths.getD (l - 1) 0) x.env.vocab qs, level := l }, [], false)
    | 1 =>
      if s.kind = 1 then ({ z with level := z.levels, drafted := e.chunk + e.pend.toNat }, [], false)
      else
        let t := { t with done := t.done + e.chunk, begun := true }
        let z := { z with turns := t :: r, position := z.position + e.chunk + e.pend.toNat, pending := z.pending && !e.pend,
                          level := 0, drafted := 0, tree := [] }
        if e.sets = 0 then (if t.gen = 0 ∧ t.left = 0 then close z t r 0 else (z, [], false))
        else emitAll e.slot { z with pending := false } t r (plainToken z (sets 0))
    | 2 =>
      let m := acceptTree z sets (z.levels + 1) 0 z.nextSeq (t.gen - t.written) ⟨[], [], false⟩
      let path := (m.path.map (fun k => 2 ^ k)).sum
      emitAll e.slot { z with position := z.position + m.toks.length, prevPath := path, level := 0, tree := [] } t r m
    | _ => emitAll e.slot { z with position := z.position + 1 } t r (plainToken z (sets 0))
where
  close (z : Slot) (t : Turn) (r : List Turn) (n : Nat) : Slot × List Entry × Bool :=
    ({ z with turns := { t with ended := some 0 } :: r }, [.closing n 0 0], false)
  emitAll (n : Nat) (z : Slot) (t : Turn) (r : List Turn) (m : Emitted) : Slot × List Entry × Bool :=
    let k := m.toks.length
    if k = 0 then (z, [], m.nan)
    else
      let full := decide (t.gen ≤ t.written + k)
      let ends := full || m.toks.any (·.2)
      let recs := m.toks.zipIdx.map (fun c =>
        Entry.record n (z.nextSeq + c.2) c.1.1 (c.1.2.toNat + 2 * (ends && decide (c.2 + 1 = k)).toNat))
      let t := { t with written := t.written + k, lastSeq := some (z.nextSeq + k - 1) }
      let z := { z with turns := t :: r, lastToken := ((m.toks.getLast?).getD (z.lastToken, false)).1, pending := true,
                        nextSeq := z.nextSeq + k,
                        log := z.log ++ m.toks.zipIdx.map (fun c =>
                          (z.nextSeq + c.2, c.1.1, c.1.2.toNat + 2 * (ends && decide (c.2 + 1 = k)).toNat, t.tag)) }
      if ends then
        let q := close z t r n
        (q.1, recs ++ [.closing n 0 0], false)
      else (z, recs, m.nan)

/-- Commits one entry: the slot is updated; where the sampler met no finite logit, the running turn then closes with
`SESSION_FAULTED` (R265, R268). -/
def commitOne (x : Pad) (s : Step) (r : Block × List Entry) (e : Part) : Block × List Entry :=
  let b := r.1
  if (liveTurn (slotGet b e.slot)).isNone then r
  else
    let c := commitPart b x s e
    let b := slotPut b e.slot c.1
    if c.2.2 then
      let k := ((slotGet b e.slot).turns.filter (fun t => t.ended = none)).length
      let b := raise b 0x121 corrected 0 0 0 0 (.session e.slot)
      let b := slotMod b e.slot (fun z => { z with st := 4, turns := z.turns.map (fun t =>
        if t.ended = none then { t with ended := some 0x0402 } else t) })
      (b, r.2 ++ c.2.1 ++ List.replicate k (.closing e.slot 0x0402 0))
    else (b, r.2 ++ c.2.1)

/-- The turns that a paddock serves, as own paddock or as draft, carry `TAMPERED` from here on (R210, R253). -/
def markTampered (b : Block) (p : Nat) : Block :=
  { b with sess := { b.sess with slots := tmapAll Slot.free b.sess.slots (fun _ z =>
      if z.paddock = p ∨ (z.spec ∧ z.draft = p) then { z with turns := z.turns.map (fun t => { t with tampered := true }) }
      else z) } }

/-- The re-execution counters of a step's turns return to 0, and its cores' rounding states are saved (R136,
R266). -/
def settleStep (b : Block) (p : Nat) (s : Step) : Block :=
  let b := s.parts.foldl (fun b e => turnMod b e.slot (fun t => { t with tries := 0 })) b
  let b := (padGet b p).cores.foldl (fun b k => coreMod b k (fun c => { c with srSaved := c.sr })) b
  let x := padGet b p
  let b := padPut b p { x with step := none, stepNum := s.num, tamperStep := false }
  if x.tamperStep then markTampered b p else b

/-- The `RECORD` item of a record of a slot's turn (R403). -/
def turnRecord (b : Block) (n seq token flags : Nat) (t : Turn) : MirrorItem :=
  ⟨2, n, BitVec.ofNat 64 seq, bytesOf 32 (recBits seq n token (slotGet b n).node
    (flags ||| 4 * t.tampered.toNat ||| 8 * t.suspended.toNat) b.time b.pair.epoch t.tag).toNat⟩

/-- The `RECORD` item of a record to be written, of the slot's running turn (R406). -/
def recordItem (b : Block) (e : Entry) : List MirrorItem :=
  match e with
  | .record n seq token flags => ((slotGet b n).turns.take 1).map (turnRecord b n seq token flags)
  | _ => []

/-- The KV pages of a slot that every position has been committed to and that have not been sent (R406). -/
def kvItems (b : Block) (n : Nat) : List MirrorItem :=
  let z := slotGet b n
  let x := padGet b z.paddock
  let full := z.position * x.env.kvPerToken / 32768
  ((ptEntries b n).filter (fun e => decide (z.kvSent ≤ e.1) && decide (e.1 < full) && !bit e.2 30)).filterMap (fun e =>
    (pageAddr x (fld e.2 0 22)).map (fun a => ⟨3, n, BitVec.ofNat 64 e.1, hbytes b a 32768⟩))

/-- The `RELEASE` item of a slot: the highest sequence whose write has been issued (R403). -/
def releaseItem (b : Block) (n : Nat) : List MirrorItem :=
  match (slotGet b n).issued with
  | 0 => []
  | k + 1 => [⟨6, n, BitVec.ofNat 64 k, []⟩]

/-- The `RELEASE` items of the ring pairs: the mirrored completions issued on each (R403). -/
def pairReleases (b : Block) : List MirrorItem :=
  b.pair.issued.map (fun e => ⟨6, 0xFFFF, BitVec.ofNat 64 (e.1 + 2 ^ 16 * e.2), []⟩)

/-- The items of a step's batch (R406). -/
def stepItems (b : Block) (s : Step) (es : List Entry) : List MirrorItem :=
  if b.pair.role = 1 then
    s.parts.flatMap (fun e => slotItem b e.slot :: kvItems b e.slot ++ releaseItem b e.slot) ++ pairReleases b ++ es.flatMap (recordItem b)
  else []

/-- Notes the pages that a batch has sent. -/
def noteKv (b : Block) (s : Step) : Block :=
  if b.pair.role = 1 then
    s.parts.foldl (fun b e => slotMod b e.slot (fun z =>
      { z with kvSent := max z.kvSent (z.position * (padGet b z.paddock).env.kvPerToken / 32768) })) b
  else b

/-- Has a fault that will fence a paddock been detected (R203, R232)? -/
def struck (b : Block) (p : Nat) : Bool :=
  b.reports.any (fun r => decide (contained ≤ r.cls) && decide (r.unit = .paddock p))

/-- The commit of an ended step (R265); a step that a fault has struck is never committed (R203, R232). -/
def stepCommit (p : Nat) (b : Block) : Block :=
  let x := padGet b p
  match x.step with
  | none => b
  | some s =>
    if !s.ended || !x.st.runs || b.flt.fatal || struck b p then b
    else if !setsHeld x s then badInput (padPut b p { x with step := some { s with ended := false } }) p
    else
      let b := settleStep b p s
      let r := s.parts.foldl (commitOne x s) (b, [])
      let items := stepItems r.1 s r.2
      let b := post (noteKv r.1 s) items r.2
      applyGait p (lowerToTarget b p)

/-- `SAMPLER_INPUT_LINE` (R267). -/
def execSamplerInputLine (k : TeamId) (s : State) : Host.Outcome State Fault Refusal := onBlk (samplerLine k) s

/-- `STEP_START` (R180). -/
def execStepStart (p : Fin 64) (s : State) : Host.Outcome State Fault Refusal := onBlk (stepStart p.val) s

/-- `STEP_COMMIT` (R265). -/
def execStepCommit (p : Fin 64) (s : State) : Host.Outcome State Fault Refusal := onBlk (stepCommit p.val) s

end Sys2Proof.Machine
end

