-- ==== Sys2Proof/Machine/ThreadCtl.lean ====
section
/-! DEFINITION. Thread control and the special registers (R175, R176). -/

namespace Sys2Proof.Machine

/-- A thread started at a PC with a value in s1: every other scalar register 0, the special registers
at their start values, the stream empty (R154, R175, R176).  Where that PC cannot be fetched, `FETCH_RANGE` names it, in the
started thread (DEDUCED, log 29: no instruction of that thread issued before it, R147). -/
def startThread (pc s1 : Word) (cycles : Nat) : Thread :=
  { Thread.parked with st := .ready, pc := pc, prev := pc, s := tput 0 [] 1 s1, cyc0 := cycles }

/-- `NOP`: all its fields are 0 (R175). -/
def nopOp (t : Thr) (x : Fields) (b : Block) : Block :=
  issue b (thrKey t) []
    (decide (x.d = 0) && decide (x.a = 0) && decide (x.b = 0) && decide (x.mod = 0) && decide (x.imm = 0))
    (fun b => advance b (thrKey t))

/-- `HALT` parks the thread (R175). -/
def haltOp (t : Thr) (x : Fields) (b : Block) : Block :=
  issue b (thrKey t) []
    (decide (x.d = 0) && decide (x.a = 0) && decide (x.b = 0) && decide (x.mod = 0) && decide (x.imm = 0))
    (fun b => thrMod b (thrKey t) (fun h => { h.rest b with st := .parked, pc := h.pc + 8 }))

/-- `TSTART` starts a parked thread of the core (R175). -/
def tstartOp (t : Thr) (x : Fields) (b : Block) : Block :=
  issue b (thrKey t) [] (decide (x.d = 0) && decide (x.mod = 0) && zeros x.imm 2) (fun b =>
    let u := coreKey t.core * 4 + fld x.imm 0 2
    if u = thrKey t ∨ (thrGet b u).st ≠ .parked then trapNow b (thrKey t) .threadState 0
    else
      let h := thrGet b (thrKey t)
      let cyc := (padGet b (padNum b (teamKey t.core.team))).cycles
      advance (wake (thrPut b u (startThread (h.rs x.a) (h.rs x.b) cyc)) (coreKey t.core)) (thrKey t))

/-- The value of a special register of a thread; none for an index that is not in the table (R176). -/
def srRead (b : Block) (k i : Nat) : Option Word :=
  let h := thrGet b k
  let team := k / 256
  let x := padGet b (padNum b team)
  let c := coreGet b (k / 4)
  match i with
  | 0x00 => some (BitVec.ofNat 32 (k % 4))
  | 0x01 => some (BitVec.ofNat 32 (x.coreIndex (k / 4)))
  | 0x02 => some (at_ 0 (keyCol team - x.col) ||| at_ 8 (keyRow team - x.row) ||| at_ 16 (k / 4 % 64))
  | 0x03 => some (at_ 0 x.env.width ||| at_ 8 x.env.height)
  | 0x04 => some h.astat
  | 0x05 => some h.wtimeout
  | 0x06 => some h.tvec
  | 0x07 => some h.tcause
  | 0x08 => some h.tpc
  | 0x09 => some h.tval
  | 0x0A => some (BitVec.ofNat 32 ((x.cycles - h.cyc0) / 10))
  | 0x0B => some (BitVec.ofNat 32 b.time)
  | 0x0C => some (h.dtHi.getD (BitVec.ofNat 32 (b.time / 2 ^ 32)))
  | 0x0D => some (BitVec.ofNat 32 (fld c.sr 0 32))
  | 0x0E => some (BitVec.ofNat 32 (fld c.sr 32 32))
  | _ => none

/-- What reading a special register does beside its value: `DTIME_LO` latches `DTIME_HI`, which the
next read of `DTIME_HI` returns (R17, R176). -/
def srTouch (b : Block) (k i : Nat) : Block :=
  match i with
  | 0x0B => thrMod b k (fun h => { h with dtHi := some (BitVec.ofNat 32 (b.time / 2 ^ 32)) })
  | 0x0C => thrMod b k (fun h => { h with dtHi := none })
  | _ => b

/-- `MFSR`: special register `IMM`[7:0] to sD (R175). -/
def mfsrOp (t : Thr) (x : Fields) (b : Block) : Block :=
  issue b (thrKey t) []
    (decide (x.a = 0) && decide (x.b = 0) && decide (x.mod = 0) && zeros x.imm 8) (fun b =>
    match srRead b (thrKey t) (fld x.imm 0 8) with
    | none => trapNow b (thrKey t) .illegal 0
    | some v => finish (srTouch b (thrKey t) (fld x.imm 0 8)) (thrKey t) (fun h => h.ws x.d v))

/-- Writes a special register; none for an index that is read-only or not in the table (R176). -/
def srWrite (b : Block) (k i : Nat) (v : Word) : Option Block :=
  match i with
  | 0x04 => some (thrMod b k (fun h => { h with astat := h.astat &&& ~~~v }))
  | 0x05 => some (thrMod b k (fun h => { h with wtimeout := v }))
  | 0x06 => some (thrMod b k (fun h => { h with tvec := v }))
  | 0x07 => some (thrMod b k (fun h => { h with tcause := v }))
  | 0x0D => some (coreMod b (k / 4) (fun c => { c with sr := setFld c.sr 0 32 v.toNat }))
  | 0x0E => some (coreMod b (k / 4) (fun c => { c with sr := setFld c.sr 32 32 v.toNat }))
  | _ => none

/-- `MTSR`: sA to special register `IMM`[7:0] (R175). -/
def mtsrOp (t : Thr) (x : Fields) (b : Block) : Block :=
  issue b (thrKey t) []
    (decide (x.d = 0) && decide (x.b = 0) && decide (x.mod = 0) && zeros x.imm 8) (fun b =>
    match srWrite b (thrKey t) (fld x.imm 0 8) ((thrGet b (thrKey t)).rs x.a) with
    | none => trapNow b (thrKey t) .illegal 0
    | some b => advance b (thrKey t))

/-- `TRAP` raises software trap `IMM`[7:0], 0x10 to 0xFF (R175, R178). -/
def trapOp (t : Thr) (x : Fields) (b : Block) : Block :=
  issue b (thrKey t) []
    (decide (x.d = 0) && decide (x.a = 0) && decide (x.b = 0) && decide (x.mod = 0) && zeros x.imm 8
      && decide (0x10 ≤ fld x.imm 0 8)) (fun b =>
    trapNow b (thrKey t) (.software (fld x.imm 0 8)) 0)

/-- `NOP` (R175). -/
def execNop (t : Thr) (x : Fields) (s : State) : Host.Outcome State Fault Refusal := onCore t (.nop t x) (nopOp t x) s

/-- `HALT` (R175). -/
def execHalt (t : Thr) (x : Fields) (s : State) : Host.Outcome State Fault Refusal := onCore t (.halt t x) (haltOp t x) s

/-- `TSTART` (R175). -/
def execTstart (t : Thr) (x : Fields) (s : State) : Host.Outcome State Fault Refusal := onCore t (.tstart t x) (tstartOp t x) s

/-- `MFSR` (R175). -/
def execMfsr (t : Thr) (x : Fields) (s : State) : Host.Outcome State Fault Refusal := onCore t (.mfsr t x) (mfsrOp t x) s

/-- `MTSR` (R175). -/
def execMtsr (t : Thr) (x : Fields) (s : State) : Host.Outcome State Fault Refusal := onCore t (.mtsr t x) (mtsrOp t x) s

/-- `TRAP` (R175). -/
def execTrap (t : Thr) (x : Fields) (s : State) : Host.Outcome State Fault Refusal := onCore t (.trap t x) (trapOp t x) s

end Sys2Proof.Machine
end

