-- ==== Sys2Proof/Machine/Paddock.lean ====
section
/-! DEFINITION. What loading, fencing, restoring and freeing a paddock do to its cores, sync state, memory and
sessions (R77, R81, R97, R191, R203, R222, R228, R232 to R237, R266, R468). -/

namespace Sys2Proof.Machine

/-! ### Staged images in HBM (R221, R222) -/

/-- The staged image of a stage number. -/
def stageGet (b : Block) (n : Nat) : Option Stage := tget none b.hbm.stages n

/-- Replaces a stage number. -/
def stagePut (b : Block) (n : Nat) (g : Option Stage) : Block :=
  hbmMod b (fun h => { h with stages := tput none h.stages n g })

/-- Reads `n` bytes that lie in a list of segments, segment by segment. -/
def readSegs : List Nat → Nat → Block → Block × Option (List Byte)
  | [], _, b => (b, some [])
  | k :: r, n, b =>
    match hread b (k * segBytes) (min n segBytes) none with
    | (b, none) => (b, none)
    | (b, some l) =>
      match readSegs r (n - segBytes) b with
      | (b, some m) => (b, some (l ++ m))
      | (b, none) => (b, none)

/-- An image without its weights, read by offsets of the whole image. -/
def imageRead (g : Stage) (l : List Byte) : ImgRead := fun o n =>
  let w := g.env.hbmWeight
  let o := if w ≠ 0 ∧ g.wOff + w ≤ o then o - w else o
  (l.drop o).take n

/-- Reads a staged image; none, and the image damaged, where a read is uncorrectable (R97, R228). -/
def readStage (b : Block) (n : Nat) : Block × Option ImgRead :=
  match stageGet b n with
  | none => (b, none)
  | some g =>
    if g.damaged || g.copying then (b, none)
    else
      match readSegs g.segsI (g.len - g.env.hbmWeight) b with
      | (b, some l) => (b, some (imageRead g l))
      | (b, none) => (b, none)

/-- Frees a stage number and its segments. -/
def freeStage (b : Block) (n : Nat) : Block :=
  match stageGet b n with
  | none => b
  | some g => (g.segsI ++ g.segsW).foldl freeSeg (stagePut b n none)

/-- Is a paddock loaded from a stage number? -/
def stageUsed (b : Block) (n : Nat) : Bool := (loadedPads b).any (fun p => decide ((padGet b p).stage = n))

/-- A releasing image that no paddock uses any more is freed (R222, R237). -/
def stageDone (b : Block) (n : Nat) : Block :=
  match stageGet b n with
  | some g => if g.releasing && !stageUsed b n then freeStage b n else b
  | none => b

/-! ### Filling and zeroing (R77, R186, R228) -/

/-- The code and read-only regions of a core as the image gives them (R217). -/
def coreImage (r : ImgRead) (i : Nat) : List Byte :=
  let m := coreRec r i
  padTo (64 * m.c) (blobBytes r m.code) ++ padTo (64 * (m.w - m.c)) (blobBytes r m.ro)

/-- `sr_state` at load (R136). -/
def srStart (seed : Dword) (i : Nat) : Dword :=
  let v := seed ^^^ (BitVec.ofNat 64 i * 0x9E3779B97F4A7C15)
  if v = 0 then 1 else v

/-- Zeroes the cisterns of a paddock, and clears their errors. -/
def zeroCisterns (b : Block) (x : Pad) : Block :=
  x.cores.foldl (fun b k =>
    { b with die := { b.die with
      cist := dropRange b.die.cist (40960 * k) (40960 * (k + 1)),
      cistErr := dropRange b.die.cistErr (5120 * k) (5120 * (k + 1)),
      repair := b.die.repair.filter (fun l => decide (l / 640 ≠ k)) } }) b

/-- Zeroes every counter of a paddock's teams. -/
def zeroCounters (b : Block) (x : Pad) : Block :=
  x.teams.foldl (fun b t =>
    { b with die := { b.die with
      ctr := dropRange b.die.ctr (512 * t) (512 * (t + 1)),
      ctrInit := dropRange b.die.ctrInit (512 * t) (512 * (t + 1)),
      ctrErr := dropRange b.die.ctrErr (512 * t) (512 * (t + 1)) } }) b

/-- The pump of a team stops: the HBM command it executes has moved a free number of lines, whole ones, and goes with the rest of
the queue, without a completion add (R59; log 120). -/
def stopPump (x : Pad) (b : Block) (t : Nat) : Block :=
  let u := pumpGet b t
  match u.q with
  | [] => b
  | c :: _ =>
    let b :=
      if c.dir = 2 ∨ padOf b t = none then b
      else (movePump t ((padOf b t).getD 0) (padSegs b x) c (min (c.len - 1) (Config.pumpMoved b.freeCtr)) 0
        { b with freeCtr := b.freeCtr + 1 }).1
    pumpLeave b t []

/-- What a paddock has under way on the die ends: waits, packets, pump commands; its threads are parked, but a faulted one stays
faulted (R42, R59, R191, R232). -/
def stopCores (b : Block) (x : Pad) : Block :=
  let b := x.teams.foldl (stopPump x) b
  let b := { b with die := { b.die with
    waiters := b.die.waiters.filter (fun w => !x.has w.team),
    mesh := b.die.mesh.filter (fun m => !x.has (teamKey m.dst)) } }
  let b := x.cores.foldl (fun b k => coreMod b k (fun c => { c with await := [], outstanding := 0, napping := false })) b
  (b.die.thr.map (·.1)).foldl (fun b k =>
    if x.has (k / 256) then
      thrMod b k (fun t => { (if t.st = .parked then t else t.rest b) with
        st := if t.st = .faulted then .faulted else .parked, wait := none })
    else b) b

/-- Sets every counter that an entry names to its `INIT`, every other to 0 (R186, R203). -/
def initCounters (b : Block) (x : Pad) : Block :=
  x.sem.foldl (fun b e =>
    match e.2 with
    | some s =>
      let b := ctrPut b (entTeam x s) s.ctr s.init
      { b with die := { b.die with ctrInit := tput none b.die.ctrInit (512 * entTeam x s + s.ctr) (some s.init) } }
    | none => b) (zeroCounters b x)

/-- Starts the threads that the image names, at their PCs; the others are parked (R176, R228, R233). -/
def startThreads (b : Block) (x : Pad) : Block :=
  x.cores.zipIdx.foldl (fun b e =>
    (List.range 4).foldl (fun b t =>
      thrPut b (4 * e.1 + t)
        (if tget 0 x.start e.2 / 2 ^ t % 2 = 1 then startThread (BitVec.ofNat 32 (tget 0 x.pcs (4 * e.2 + t))) 0 x.cycles
         else { (thrGet b (4 * e.1 + t)).rest b with st := .parked, wait := none })) b) b

/-- A paddock's cores hold nothing any more (R77, R186, R237). -/
def emptyCores (b : Block) (x : Pad) : Block :=
  let b := zeroCounters (zeroCisterns (rewriteCopies (stopCores b x) x) x) x
  let b := x.cores.foldl (fun b k => corePut b k CoreS.init) b
  x.cores.foldl (fun b k => (List.range 4).foldl (fun b t => thrPut b (4 * k + t) Thread.parked) b) b

/-- Step 4 of R228: cisterns, translation rows, counters, barrier slots, accumulators, rounding states. -/
def fillPad (b : Block) (p : Nat) (r : ImgRead) : Block :=
  let x := padGet b p
  let e := x.env
  let span := spanOf r
  let bars := (List.range e.barrierCount).foldl (fun (m : Tbl Bar) n =>
    let home := bit span.2 n
    tput Bar.zero m n { Bar.zero with need := maskCount r e n + (decide (n = 0)).toNat + home.toNat,
                                      span := bit span.1 n, home := home }) []
  let masks := (List.range (e.barrierCount * (e.width * e.height))).foldl (fun (m : Tbl (BitVec 256)) i =>
    tput 0 m (i / (e.width * e.height) * 4720 + i % (e.width * e.height)) (maskOf r e (i / (e.width * e.height)) (i % (e.width * e.height)))) []
  let sem := (semsOf r).foldl (fun (m : Tbl (Option SemEnt)) s => tput none m s.1 (some s.2)) []
  let start := (List.range (e.width * e.height * 64)).foldl (fun (m : Tbl Nat) i => tput 0 m i (coreRec r i).start) []
  let pcs := (List.range (e.width * e.height * 256)).foldl (fun (m : Tbl Nat) i => tput 0 m i ((coreRec r (i / 4)).pcs.getD (i % 4) 0)) []
  let x := { x with sem := sem, bars := bars, masks := masks, rounds := [], rounds0 := [], start := start, pcs := pcs, bar0 := tget Bar.zero bars 0 }
  let b := initCounters (emptyCores (padPut b p x) x) x
  let b := x.cores.zipIdx.foldl (fun b k =>
    let m := coreRec r k.2
    let sr := srStart e.seed k.2
    corePut (cwrite b k.1 0 (coreImage r k.2)) k.1 { CoreS.init with cB := m.c, wB := m.w, sr := sr, srSaved := sr }) b
  startThreads b x

/-! ### Sessions of a paddock -/

/-- The open slots bound to a paddock, as their own or as their draft. -/
def boundSlots (b : Block) (p : Nat) : List Nat :=
  (b.sess.slots.filter (fun e => decide (e.2.st ≠ 0) && (decide (e.2.paddock = p) || (e.2.spec && decide (e.2.draft = p))))).map (·.1)

/-- The turns that a paddock serves are suspended (R253). -/
def suspendPad (b : Block) (p : Nat) : Block :=
  (boundSlots b p).foldl (fun b n => slotMod b n (fun z =>
    { z with turns := z.turns.map (fun t => { t with suspended := true }) })) b

/-- The running turn of a slot, if it has one, closes with `SESSION_FAULTED`. -/
def faultRunning (b : Block) (n : Nat) : Block :=
  if (slotGet b n).turns.any (fun t => t.ended.isNone) then faultSession b n else b

/-- A paddock whose image is damaged stays fenced, and its sessions' turns are closed (R81, R235). -/
def killPad (b : Block) (p : Nat) : Block :=
  (boundSlots b p).foldl faultRunning (padMod b p (fun x => { x with dead := true }))

/-! ### Fencing (R232, R266) -/

/-- The third fault in one step closes the running turns of its batch (R266). -/
def thirdFault (b : Block) (x : Pad) : Block :=
  match x.step with
  | some s =>
    if s.going then
      s.parts.foldl (fun b e =>
        match liveTurn (slotGet b e.slot) with
        | some t => if 2 ≤ t.tries then faultSession b e.slot else b
        | none => b) b
    else b
  | none => b

/-- Fences a paddock: from here it issues nothing, its step is not committed, and its turns are suspended. -/
def fencePad (b : Block) (p : Nat) : Block :=
  let x := padGet b p
  if x.st = .free then b
  else
    let b := stopCores b x
    let b := padPut b p { x with
      back := if x.st = .fenced ∨ x.st = .restoring then x.back else x.st, quiet := false, act := 0,
      step := x.step.map (fun s => { s with lines := [], ended := false, going := false }) }
    let b := padState b p .fenced
    let b := suspendPad b p
    let b := if x.doomed then (boundSlots b p).foldl faultRunning b else x.faulted.foldl faultRunning b
    let b := padMod b p (fun x => { x with doomed := false, faulted := [] })
    thirdFault b x

/-! ### Restoring (R81, R203, R233) -/

/-- The lines of a paddock that await repair: core key and line. -/
def padRepairs (b : Block) (x : Pad) : List (Nat × Nat) :=
  (b.die.repair.filter (fun l => x.has (l / 640 / 64))).map (fun l => (l / 640, l % 640))

/-- Does a restore need the staged image? -/
def needsImage (b : Block) (x : Pad) : Bool :=
  decide (x.act = 2) || (padRepairs b x).any (fun l => decide (l.2 < (coreGet b l.1).wB))

/-- A fenced paddock that is quiet and whose action is chosen enters restoring (R233, R235). -/
def beginRestore (b : Block) (p : Nat) : Block :=
  let x := padGet b p
  if x.st = .fenced ∧ x.quiet ∧ (x.act = 1 ∨ x.act = 2) ∧ !x.dead ∧ !b.flt.fatal then
    if needsImage b x && (stageGet b x.stage).all (fun g => g.damaged) then killPad b p
    else padState b p .restoring
  else b

/-- Repairs one line: from the image in the code and read-only regions, zero in scratch (R81). -/
def repairLine (b : Block) (x : Pad) (r : Option ImgRead) (l : Nat × Nat) : Block :=
  let img := match r with
    | some r => ((coreImage r (x.coreIndex l.1)).drop (64 * l.2)).take 64
    | none => []
  portWrite b l.1 l.2 (lineOf (if l.2 < (coreGet b l.1).wB then img else []))

/-- Every participant of barriers 1 to 255 is next in its barrier's open round (R203); `m` holds the rounds of barrier 0. -/
def openRounds (x : Pad) (m : Tbl Nat) : Tbl Nat :=
  x.masks.foldl (fun m e =>
    let n := e.1 / 4720
    if n = 0 ∨ (x.bar n).opened = 0 then m
    else ((List.range 256).filter (fun i => bit e.2 i)).foldl (fun m i =>
      tput 0 m (n * 2 ^ 21 + 256 * (e.1 % 4720) + i) (x.bar n).opened) m) m

/-- The sync state of the start of the step (R203): counters at `INIT`, barriers 1 to 255 without arrivals, barrier 0
as the release of the last step left it, or as the loader set it. -/
def restoreSync (b : Block) (p : Nat) : Block :=
  let b := initCounters b (padGet b p)
  padMod b p (fun x =>
    let bars := tmapAll Bar.zero x.bars (fun n y => if n = 0 then x.bar0 else { y with even := 0, odd := 0, sent := false })
    { x with bars := bars, rounds := openRounds x (x.rounds0.filter (fun e => decide (e.1 < 2 ^ 21))) })

/-- The step restore (R233): lines are repaired, sync state and rounding states restored, the declared threads
started again. -/
def stepRestore (b : Block) (p : Nat) (r : Option ImgRead) : Block :=
  let x := padGet b p
  let ls := padRepairs b x
  let b := ls.foldl (fun b l => repairLine b x r l) b
  let b := { b with die := { b.die with repair := b.die.repair.filter (fun l => !x.has (l / 640 / 64)) } }
  let b := restoreSync (rewriteCopies b x) p
  let x := padGet b p
  let b := x.cores.foldl (fun b k => coreMod b k (fun c => { c with ibuf := [], sr := c.srSaved })) b
  startThreads b x

/-- The paddock goes back to what it was when it was fenced; the interrupted step waits to be executed again. -/
def backPad (b : Block) (p : Nat) : Block :=
  let x := padGet b p
  padState (recsDone (padPut b p { x with recs := [], act := 0, quiet := false }) x.recs) p x.back

/-! ### Freeing (R222, R237, R468) -/

/-- Releases a split part's flows and its reservation along the path (R381, R386). -/
def dropFlows (b : Block) (x : Pad) : Block :=
  let me := b.fab.node.getD 0
  let b := (b.fab.resv.filter (fun e => x.flows.contains e.flow && decide (e.src = me))).foldl (fun b e =>
    sendOn b e.port ⟨e.dst, me, 0, false, e.flow, 0, 0⟩
      (.resv ⟨BitVec.ofNat 13 e.flow, BitVec.ofNat 12 e.dst, BitVec.ofNat 12 me, 0, true, none, 0⟩)) b
  let b := fabMod b (fun f => { f with resv := f.resv.filter (fun e => !(x.flows.contains e.flow && decide (e.src = me))) })
  x.flows.foldl (fun b f => flowPut b f none) b

/-- Frees a paddock number: its cores are zeroed, its segments, flows and budget returned, its reference to the
staged image dropped. -/
def freePad (b : Block) (p : Nat) : Block :=
  let x := padGet b p
  let b := tracked (fun b => padPut (emptyCores b x) p Pad.init) b
  let b := x.kv.foldl freeSeg (dropFlows b x)
  stageDone (rampDomains (padState b p .free)) x.stage

/-- Closes every session bound to a paddock: pages and pool entries return; a slot whose output is still held is
freed once it is written.  Answers how many. -/
def closeBound (b : Block) (p : Nat) : Block × Nat :=
  let ns := boundSlots b p
  (ns.foldl (fun b n =>
    let b := pagesReturn b (slotGet b n).paddock n
    let b := slotMod b n (fun z => { z with unloading := true })
    if sessionQuiet b n then closeSession b n else b) b, ns.length)

/-- Forces a paddock off (R468); an unload that waits for its turns completes with the sessions closed. -/
def forceOff (b : Block) (p : Nat) : Block :=
  let b := (boundSlots b p).foldl (fun b n => endTurns b n 0x0401) b
  let r := closeBound b p
  let x := padGet r.1 p
  let es := x.waiters.map (fun w => cookieComp w.1 w.2 0 p r.2 1 true)
  recsDone (post (freePad r.1 p) [] es) x.recs

end Sys2Proof.Machine
end

