-- ==== Sys2Proof/Machine/Loads.lean ====
section
/-! DEFINITION. Staging images, loading, restoring and unloading paddocks, and `GAIT_SET` (R220 to R240, R437,
R438, R528). -/

namespace Sys2Proof.Machine

/-- Checks the descriptor of a type at the head of pair `q` where its byte at an offset holds the operation. -/
def checkOp (b : Block) (q ty off op : Nat) (check : Block → Line → Block) : Block :=
  match nextDesc b q ty with
  | some d => if dfield d off 1 = op then checkDesc b q ty check else b
  | none => b

/-! ### The source of a stage (R98, R100, R103, R220, R292) -/

/-- Is a window segment retired (R100)? -/
def winRetired (b : Block) (k : Nat) : Bool := b.hbm.retired.any (fun r => decide (r.seg = k) && !r.pending)

/-- Reads bytes of the CXL.mem window for the module's own use, after a back-invalidate snoop of their lines (R275); none where the
window does not hold them or a unit is poisoned or uncorrectable. -/
def winRead (b : Block) (off n : Nat) : Block × Option (List Byte) :=
  if windowOff b || decide (68719476736 < off + n)
      || (List.range ((off + n - 1) / segBytes + 1 - off / segBytes)).any (fun i => winRetired b (off / segBytes + i)) then (b, none)
  else hread (emit b (.backInval off n)) off n none

/-- A byte list as an image. -/
def listRead (l : List Byte) : ImgRead := fun o n => (l.drop o).take n

/-! ### Staging (R221) -/

/-- A load report of resources that fall short (R229): code, needed and available, lowest code first. -/
def shortReport (l : List (Nat × Nat × Nat)) : Nat :=
  match l with
  | [] => 0
  | (c, need, avail) :: _ =>
    c + 2 ^ 16 * ((l.map (fun e => 2 ^ e.1)).sum % 2 ^ 16) + 2 ^ 32 * min need (2 ^ 32 - 1) + 2 ^ 64 * min avail (2 ^ 32 - 1)

/-- Segments that a stage claims. -/
def stageNeed (r : ImgRead) : Nat := cdiv (imgLen r - (envOf r).hbmWeight) segBytes + cdiv (envOf r).hbmWeight segBytes

/-- The lowest free stage number. -/
def freeStageNo (b : Block) : Option Nat := (List.range 1024).find? (fun n => (stageGet b n).isNone)

/-- The host address of the chunk that a list entry names; none where the entry fails R292. -/
def chunkAddr (e : Option ChunkEntry) : Option Nat :=
  match e with
  | some e => if bit e.word 0 && decide (fld e.word 1 20 = 0) && e.inHost then some (fld e.word 21 43 * 2 ^ 21) else none
  | none => none

/-- The chunks of a source that hold the first `len` bytes, in list order; none where the list lacks one of their entries, or one
fails R292. -/
def sourceChunks (q : StageReq) (len : Nat) : Option (List Nat) :=
  let k := cdiv len segBytes
  let l := ((q.list.take q.count).take k).map chunkAddr
  if l.length = k ∧ l.all (·.isSome) then some (l.filterMap id) else none

/-- Step 3 and 4 of R221, with what R292 asks of a chunk list: checks and claims, or a refusal; then the copy starts. -/
def stageClaim (b : Block) (q : StageReq) (last : Bool) : Block :=
  let r := listRead q.head
  let refuse := fun (b : Block) (st detail : Nat) => post b [] [cookieComp q.pair q.cookie st 0 detail 1 last]
  let src := if q.win.isSome then some [] else sourceChunks q (imgLen r)
  if magicOk r && featOk r && src.isNone then refuse b 0x0203 0
  else if headStatus r ≠ 0 then refuse b (headStatus r) 0
  else
    let need := stageNeed r
    let clean := cleanSegs b
    let short := (if clean.length < need then [(8, need, clean.length)] else [])
      ++ (if (freeStageNo b).isNone then [(12, 1, 0)] else [])
    match freeStageNo b, short with
    | some n, [] =>
      let e := envOf r
      let nI := cdiv (imgLen r - e.hbmWeight) segBytes
      let segs := clean.take need
      let b := segs.foldl (fun b k => segPut b k (.stage n)) b
      let g : Stage := { hash := imgHash r, env := e, len := imgLen r,
                         wOff := (sectOf r 6).elim 0 (fun s => s.off), segsI := segs.take nI, segsW := segs.drop nI,
                         refs := 0, damaged := false, releasing := false, copying := true, head := q.head, reqs := [q] }
      let b := stagePut b n (some g)
      let b := ((src.getD []).zipIdx).foldl (fun b a => emit b (.chunkRead a.1 (min segBytes (imgLen r - segBytes * a.2)))) b
      if last then b else openDesc b q.pair
    | _, l => refuse b 0x0201 (shortReport l)

/-- The bytes that the check reads: from the window, or from the first chunk of the host's list. -/
def stageHead (b : Block) (d : Line) (list : List (Option ChunkEntry)) (first : Option (List Byte)) : Block × Option (List Byte) :=
  if dfield d 0x09 1 = 0 then winRead b (dfield d 0x10 8) 4096
  else
    match (list.take (dfield d 0x18 4)).head?.bind chunkAddr with
    | some a => (emit b (.chunkRead a 4096), first.map (fun l => padTo 4096 l))
    | none => (b, none)

/-- The stage that a STAGE of the same hash joins (R221). -/
def sameImage (b : Block) (h : BitVec 256) : Option Nat :=
  (b.hbm.stages.find? (fun e => match e.2 with
    | some g => decide (g.hash = h) && !g.damaged && !g.releasing
    | none => false)).map (·.1)

/-- `MODEL_STAGE` with `OP` 0: `list` holds the entries of a host chunk list as the module reads them, none for one that it cannot
read, and `first` the first 4 KiB of the first chunk, none where they cannot be read. -/
def stageCheck (q : Nat) (list : List (Option ChunkEntry)) (first : Option (List Byte)) (b : Block) : Block :=
  checkOp b q 0x10 0x08 0 (fun b d =>
    if !schedReady b || !allReady b 2 8 then finishDesc b q d 0x0104 0 0
    else
      match stageHead b d list first with
      | (b, none) => finishDesc b q d 0x0203 0 0
      | (b, some l) =>
        let r := listRead l
        let win := if dfield d 0x09 1 = 0 then some (dfield d 0x10 8) else none
        let req : StageReq := ⟨q, dCookie d, l, win, dfield d 0x18 4, list⟩
        match sameImage b (imgHash r) with
        | some n =>
          match stageGet b n with
          | some g =>
            if g.copying then openDesc (stagePut b n (some { g with reqs := g.reqs ++ [req] })) q
            else finishDesc (stagePut b n (some { g with refs := g.refs + 1 })) q d 0 n (g.refs + 1)
          | none => b
        | none => stageClaim b req false)

/-- Writes bytes into a list of segments, from the first on. -/
def writeSegs : List Nat → List Byte → Block → Block
  | [], _, b => b
  | k :: r, l, b => writeSegs r (l.drop segBytes) (hwrite b (k * segBytes) (l.take segBytes))

/-- The first `len` bytes that the chunks of a host source gave, in list order; none where one of them could not be read. -/
def chunkBytes (chunks : List (Option (List Byte))) (len : Nat) : Option (List Byte) :=
  let l := chunks.take (cdiv len segBytes)
  if l.all (·.isSome) then some ((l.flatMap (fun c => c.getD [])).take len) else none

/-- The copy of a stage ends: `chunks` holds the bytes that each chunk of a host source gave, none for one that could not be read.
The image is checked whole and the stage completes, or is refused and each further STAGE of the same hash goes on as its
own (R221, R292). -/
def stageDoneCopy (n : Nat) (chunks : List (Option (List Byte))) (b : Block) : Block :=
  match stageGet b n with
  | none => b
  | some g =>
    if !g.copying then b
    else
      let src := match g.reqs with
        | q :: _ =>
          match q.win with
          | some o => winRead b o g.len
          | none => (b, chunkBytes chunks g.len)
        | [] => (b, none)
      let b := src.1
      let ok := match src.2 with
        | some l =>
          decide (l.length = g.len) && imageOk (listRead l) && decide (hashOf l = g.hash)
            && decide (padTo (0x100 + 32 * sectCount (listRead l)) l = padTo (0x100 + 32 * sectCount (listRead l)) g.head)
        | none => false
      if ok then
        let l := src.2.getD []
        let w := g.env.hbmWeight
        let b := writeSegs g.segsI (l.take g.wOff ++ l.drop (g.wOff + w)) b
        let b := writeSegs g.segsW ((l.drop g.wOff).take w) b
        let b := stagePut b n (some { g with copying := false, refs := g.reqs.length, reqs := [] })
        (g.reqs.zipIdx).foldl (fun b e => post b [] [cookieComp e.1.pair e.1.cookie 0 n (e.2 + 1) 1 true]) b
      else
        let b := freeStage b n
        match g.reqs with
        | q :: r =>
          let b := post b [] [cookieComp q.pair q.cookie 0x0203 0 0 1 true]
          r.foldl (fun b q => stageClaim b q true) b
        | [] => b

/-- `MODEL_STAGE` with `OP` 1 (R222). -/
def stageRelease (q : Nat) (b : Block) : Block :=
  checkOp b q 0x10 0x08 1 (fun b d =>
    let n := fld d 80 10
    if !schedReady b || !allReady b 2 8 then finishDesc b q d 0x0104 n 0
    else
      match stageGet b n with
      | none => finishDesc b q d 0x0203 n 0
      | some g =>
        if g.copying || g.releasing then finishDesc b q d 0x0203 n 0
        else
          let g := { g with refs := g.refs - 1 }
          let b := stagePut b n (some { g with releasing := decide (g.refs = 0) })
          finishDesc (stageDone b n) q d 0 n g.refs)

/-! ### The place of a load (R225 to R227, R229) -/

/-- Is a physical team marked failed (R469)? -/
def teamFailed (b : Block) (k : Nat) : Bool := b.flt.failed.contains (60 * keyCol k + physRow b (keyCol k) (keyRow k))

/-- Is a team free (R225), counting a column that is not ready as not free where asked (R428)? -/
def teamFree (b : Block) (needReady : Bool) (k : Nat) : Bool :=
  teamIdle b k && !teamFailed b k && (!needReady || isReady b 4 (keyCol k))

/-- The free teams of the grid. -/
def freeTeams (b : Block) (needReady : Bool) : List Nat := (List.range 4720).filter (teamFree b needReady)

/-- Consecutive free teams of a column from a row down. -/
def freeRun (free : List Nat) (col row : Nat) : Nat :=
  ((List.range (59 - row)).takeWhile (fun i => free.contains (59 * col + row + i))).length

/-- The free rectangles at an origin: for each width, the tallest. -/
def rectsAt (free : List Nat) (col row : Nat) : List (Nat × Nat) :=
  go (80 - col) 1 60
where
  go : Nat → Nat → Nat → List (Nat × Nat)
    | 0, _, _ => []
    | n + 1, w, h =>
      let h := min h (freeRun free (col + w - 1) row)
      if h = 0 then [] else (w, h) :: go n (w + 1) h

/-- The origins, in ascending column and then row (R227). -/
def origins : List (Nat × Nat) := (List.range 80).flatMap (fun c => (List.range 59).map (fun r => (c, r)))

/-- Does a rectangle lie in the grid with every team free? -/
def rectFree (free : List Nat) (col row w h : Nat) : Bool :=
  decide (col + w ≤ 80) && decide (row + h ≤ 59) && (rectTeams col row w h).all (fun k => free.contains k)

/-- The report of a load that finds no rectangle (R229). -/
def fragReport (free : List Nat) (h : Nat) : Nat :=
  let all := origins.flatMap (fun o => (rectsAt free o.1 o.2).map (fun s => (o.1, o.2, s.1, s.2)))
  let best := all.foldl (fun (m : Nat × Nat × Nat × Nat) s => if m.2.2.1 * m.2.2.2 < s.2.2.1 * s.2.2.2 then s else m) (0, 0, 0, 0)
  let widest := (all.map (fun s => if h ≤ s.2.2.2 then s.2.2.1 else 0)).foldl max 0
  2 ^ 32 * best.1 + 2 ^ 40 * best.2.1 + 2 ^ 48 * best.2.2.1 + 2 ^ 56 * best.2.2.2 + 2 ^ 64 * widest + 2 ^ 96 * free.length

/-! ### Loading (R223 to R229) -/

/-- Free flow numbers, ascending. -/
def freeFlows (b : Block) : List Nat := (List.range 8192).filter (fun f => (flowGet b f).isNone)

/-- The resources that fall short, in code order (R226). -/
def shortages (b : Block) (e : Env) (gait : Nat) (free : List Nat) : List (Nat × Nat × Nat) :=
  let kv := cdiv e.kvReserve segBytes
  let charge := e.width * e.height * 64 * budget gait
  let left := 6400 * moduleBudget b - committedSum b
  let pads := 64 - (loadedPads b).length
  let rows : List (Bool × Nat × Nat × Nat) :=
    [(decide (pads < 1), 1, 1, pads),
     (decide (free.length < e.width * e.height), 2, e.width * e.height, free.length),
     (decide (40960 < e.cisternBytes), 3, e.cisternBytes, 40960),
     (decide (512 < e.countersPerTeam), 4, e.countersPerTeam, 512),
     (decide (4096 < e.semCount), 5, e.semCount, 4096),
     (decide (256 < e.barrierCount), 6, e.barrierCount, 256),
     (decide (65536 < cdiv e.hbmWeight segBytes + kv), 7, cdiv e.hbmWeight segBytes + kv, 65536)] ++
    [(decide ((cleanSegs b).length < kv), 8, kv, (cleanSegs b).length),
     (decide (gaitCap b < gait), 9, gait, gaitCap b),
     (decide (left < charge), 10, cdiv charge 64000, left / 64000),
     (decide ((freeFlows b).length < e.splitFlows), 11, e.splitFlows, (freeFlows b).length)]
  (rows.filter (·.1)).map (·.2)

/-- The join message of a split part (R238). -/
def joinMsg (b : Block) (p : Nat) : JoinMsg :=
  let x := padGet b p
  let marks := fun (f : Bar → Bool) => BitVec.ofNat 256 ((x.bars.map (fun e => if f e.2 then 2 ^ e.1 else 0)).sum)
  ⟨x.hash, x.env.peerHash, BitVec.ofNat 6 p, BitVec.ofNat 16 x.env.role, marks (·.span), marks (·.home), BitVec.ofNat 12 (b.fab.node.getD 0)⟩

/-- Claims what a load needs, on the rectangle at an origin (R224, R228). -/
def claimPad (b : Block) (q : Nat) (d : Line) (n : Nat) (g : Stage) (col row gait : Nat) : Block :=
  match (List.range 64).find? (fun p => decide ((padGet b p).st = .free)) with
  | none => b
  | some p =>
    let e := g.env
    let kv := (cleanSegs b).take (cdiv e.kvReserve segBytes)
    let flows := (freeFlows b).take e.splitFlows
    let peer := if e.split then fld d (8 * 0x0E) 12 else 0
    let x := { Pad.init with col := col, row := row, stage := n, env := e, hash := g.hash, gait := gait, run := gait,
                             target := gait, peer := peer, kv := kv, flows := flows }
    let b := kv.foldl (fun b k => segPut b k (.kv p)) (padPut b p { x with st := .loading })
    let b := flows.foldl (fun b f => flowPut b f (some ⟨peer, p, 0, [], []⟩)) b
    let b := padMod b p (fun x => { x with waiters := [(q, dCookie d)] })
    openDesc (rampDomains (padState b p .loading)) q

/-- `PADDOCK_LOAD`. -/
def padLoad (q : Nat) (b : Block) : Block :=
  checkDesc b q 0x11 (fun b d =>
    let n := fld d 64 10
    let auto := bit d (8 * 0x0A)
    if !schedReady b || !allReady b 2 8 || !roleServes b then finishDesc b q d 0x0104 0 0
    else
      match stageGet b n with
      | none => finishDesc b q d 0x0203 0 0
      | some g =>
        if g.copying || g.damaged || g.releasing then finishDesc b q d 0x0203 0 0
        else
          let e := g.env
          let col := dfield d 0x0B 1
          let row := dfield d 0x0C 1
          let gait := max e.gait (fld d (8 * 0x0D) 2)
          if !auto && !((List.range e.width).all (fun i => decide (80 ≤ col + i) || isReady b 4 (col + i))) then
            finishDesc b q d 0x0104 0 0
          else
            let free := freeTeams b auto
            match shortages b e gait free with
            | [] =>
              let place := if auto then origins.find? (fun o => rectFree free o.1 o.2 e.width e.height)
                else if rectFree free col row e.width e.height then some (col, row) else none
              match place with
              | none => finishDesc b q d 0x0202 0 (fragReport free e.height)
              | some o => claimPad b q d n g o.1 o.2 gait
            | l => finishDesc b q d 0x0201 0 (shortReport l))

/-- Completes the descriptors that wait at a paddock. -/
def finishWaiters (b : Block) (p status detail : Nat) (items : List MirrorItem) : Block :=
  let ws := (padGet b p).waiters
  let es := ws.map (fun w => cookieComp w.1 w.2 status p detail 1 true)
  post (padMod b p (fun x => { x with waiters := [] })) (items ++ es.flatMap compItem) es

/-- The load is done: its threads run, and it completes `OK`; a split part enters joining and asks its peer (R228,
R238). -/
def finishLoad (b : Block) (p : Nat) : Block :=
  let x := padGet b p
  let b := padState b p (if x.env.split then .joining else .ready)
  let b := recsDone (padMod b p (fun x => { x with recs := [], act := 0, quiet := false })) x.recs
  let b := finishWaiters b p 0 0 [padItem b p]
  if x.env.split then askPeer b p (.join p (joinMsg b p)) false else b

/-- The load is abandoned: everything it claimed is returned, and it is refused (R228, R528). -/
def abandonLoad (b : Block) (p status detail : Nat) : Block :=
  let x := padGet b p
  let b := freePad b p
  let es := x.waiters.map (fun w => cookieComp w.1 w.2 status p detail 1 true)
  recsDone (post b [] es) x.recs

/-- The cisterns are filled and the domains have ramped (R436): the load completes, or is refused where the image could not be
read. -/
def loadDone (p : Nat) (b : Block) : Block :=
  let x := padGet b p
  if x.st = .loading ∧ rampsDone b x x.run then
    match readStage b x.stage with
    | (b, none) => abandonLoad b p 0x0203 0
    | (b, some r) => finishLoad (fillPad b p r) p
  else b

/-! ### Restoring (R233 to R236, R528) -/

/-- A fenced paddock is quiet (R232): a chosen restore begins. -/
def padQuiet (p : Nat) (b : Block) : Block :=
  let x := padGet b p
  if x.st = .fenced ∧ !x.quiet then beginRestore (padPut b p { x with quiet := true }) p else b

/-- The per-paddock reset (R233); where a step is to be executed again, the rounding states are those of its start
(R136). -/
def fullRestore (b : Block) (p : Nat) (r : ImgRead) : Block :=
  let x := padGet b p
  let saved := x.cores.map (fun k => (k, (coreGet b k).srSaved))
  let b := fillPad b p r
  if x.step.isSome then saved.foldl (fun b e => coreMod b e.1 (fun c => { c with sr := e.2, srSaved := e.2 })) b else b

/-- A restore ends; the regulators of its strips have restarted (R436). -/
def restoreDone (p : Nat) (b : Block) : Block :=
  let x := padGet b p
  if x.st = .restoring ∧ rampsDone b x x.run then
    if needsImage b x then
      match readStage b x.stage with
      | (b, none) => if x.back = .loading then abandonLoad b p 0x0203 0 else killPad (padState b p .fenced) p
      | (b, some r) =>
        let b := if x.act = 2 then fullRestore b p r else stepRestore b p (some r)
        if x.back = .loading then finishLoad b p else backPad b p
    else backPad (stepRestore b p none) p
  else b

/-- After a warm reset Swizen restores the recorded paddocks, lowest first, once HBM, the tiers and the paddock's
teams are ready (R236). -/
def warmRestore (p : Nat) (b : Block) : Block :=
  let x := padGet b p
  match b.pwr.restore with
  | k :: r =>
    if k = p ∧ isReady b 0 0 ∧ allReady b 2 8 ∧ allReady b 3 4
        ∧ (List.range x.env.width).all (fun i => isReady b 4 (x.col + i)) then
      beginRestore (padMod (pwrMod b (fun w => { w with restore := r })) p (fun x => { x with quiet := true, act := 2 })) p
    else b
  | [] => b

/-! ### Unloading (R234, R237, R479) -/

/-- A paddock enters draining. -/
def drainPad (b : Block) (p : Nat) : Block :=
  let x := padGet b p
  let b := (boundSlots b p).foldl (fun b n => slotMod b n (fun z => { z with unloading := true })) b
  let b := if x.st = .fenced ∨ x.st = .restoring then padPut b p { x with back := .draining } else padState b p .draining
  if x.env.split then askPeer b p (.draining p) false else b

/-- `PADDOCK_UNLOAD` in mode DRAIN. -/
def unloadDrain (q : Nat) (b : Block) : Block :=
  checkOp b q 0x12 0x09 0 (fun b d =>
    let p := fld d 64 6
    let x := padGet b p
    if !schedReady b || !roleServes b then finishDesc b q d 0x0104 p 0
    else if x.st = .free then finishDesc b q d 0x0203 p 0
    else if x.st = .loading ∨ ((x.st = .fenced ∨ x.st = .restoring) ∧ x.back = .loading) then finishDesc b q d 0x0104 p 0
    else
      let draining := decide (x.st = .draining) || (decide (x.st ≠ .ready) && decide (x.st ≠ .joining) && decide (x.back = .draining))
      let b := padMod b p (fun x => { x with waiters := x.waiters ++ [(q, dCookie d)] })
      openDesc (if draining then b else drainPad b p) q)

/-- Have the turns that a paddock serves all closed, with their output written? -/
def padIdle (b : Block) (p : Nat) : Bool := (boundSlots b p).all (fun n => sessionQuiet b n)

/-- A draining paddock's turns have closed: its sessions are closed and it is freed.  The other part of a split waits until the
session part, which it asks again, says that its accepted turns have closed (R237, R239; DESIGN CHOICE, log 125). -/
def unloadDone (p : Nat) (b : Block) : Block :=
  let x := padGet b p
  if (x.st = .draining ∨ (x.dead ∧ x.back = .draining)) ∧ padIdle b p ∧ x.step.all (fun s => !s.going) then
    if x.env.split && !x.env.sessionPart && x.peerBusy then askPeer b p (.draining p) false
    else
      let r := closeBound b p
      let ws := (padGet r.1 p).waiters
      let item := padItem r.1 p
      let es := ws.map (fun w => cookieComp w.1 w.2 0 p r.2 1 true)
      post (freePad r.1 p) (item :: es.flatMap compItem) es
  else b

/-- `PADDOCK_UNLOAD` in mode RESTART: the contained fault `PADDOCK_RESTART`. -/
def unloadRestart (q : Nat) (b : Block) : Block :=
  checkOp b q 0x12 0x09 1 (fun b d =>
    let p := fld d 64 6
    let x := padGet b p
    if !schedReady b || !roleServes b then finishDesc b q d 0x0104 p 0
    else if x.st = .free then finishDesc b q d 0x0203 p 0
    else if x.tampered then finishDesc b q d 0x0404 p 0
    else finishDesc (raise b 0x110 contained (padD0 p) 0 0 0 (.paddock p)) q d 0 p 0)

/-- `GAIT_SET` (R437, R438). -/
def gaitSet (q : Nat) (b : Block) : Block :=
  checkDesc b q 0x13 (fun b d =>
    let p := fld d 64 6
    let x := padGet b p
    if !schedReady b || !roleServes b || !x.st.serves then finishDesc b q d 0x0104 p 0
    else
      let b := padPut b p { x with target := max x.gait (min (gaitCap b) (fld d 72 2)) }
      let e := cookieComp q (dCookie d) 0 p 0 1 false
      post b (padItem b p :: compItem e) [e])

/-! ### Meanings -/

/-- `MODEL_STAGE_STAGE` (R221). -/
def execModelStageStage (q : Fin 1024) (list : List (Option ChunkEntry)) (first : Option (List Byte)) (s : State) :
    Host.Outcome State Fault Refusal := onBlk (stageCheck q.val list first) s

/-- `STAGE_COPY_DONE` (R221). -/
def execStageCopyDone (n : Fin 1024) (chunks : List (Option (List Byte))) (s : State) : Host.Outcome State Fault Refusal :=
  onBlk (stageDoneCopy n.val chunks) s

/-- `MODEL_STAGE_RELEASE` (R222). -/
def execModelStageRelease (q : Fin 1024) (s : State) : Host.Outcome State Fault Refusal := onBlk (stageRelease q.val) s

/-- `PADDOCK_LOAD` (R228). -/
def execPaddockLoad (q : Fin 1024) (s : State) : Host.Outcome State Fault Refusal := onBlk (padLoad q.val) s

/-- `PADDOCK_LOAD_DONE` (R228). -/
def execPaddockLoadDone (p : Fin 64) (s : State) : Host.Outcome State Fault Refusal := onBlk (loadDone p.val) s

/-- `PADDOCK_UNLOAD_DRAIN` (R237). -/
def execPaddockUnloadDrain (q : Fin 1024) (s : State) : Host.Outcome State Fault Refusal := onBlk (unloadDrain q.val) s

/-- `PADDOCK_UNLOAD_DONE` (R237). -/
def execPaddockUnloadDone (p : Fin 64) (s : State) : Host.Outcome State Fault Refusal := onBlk (unloadDone p.val) s

/-- `PADDOCK_UNLOAD_RESTART` (R234). -/
def execPaddockUnloadRestart (q : Fin 1024) (s : State) : Host.Outcome State Fault Refusal := onBlk (unloadRestart q.val) s

/-- `GAIT_SET` (R438). -/
def execGaitSet (q : Fin 1024) (s : State) : Host.Outcome State Fault Refusal := onBlk (gaitSet q.val) s

/-- `PADDOCK_QUIET` (R233). -/
def execPaddockQuiet (p : Fin 64) (s : State) : Host.Outcome State Fault Refusal := onBlk (padQuiet p.val) s

/-- `PADDOCK_RESTORE_DONE` (R233). -/
def execPaddockRestoreDone (p : Fin 64) (s : State) : Host.Outcome State Fault Refusal := onBlk (restoreDone p.val) s

/-- `PADDOCK_WARM_RESTORE` (R236). -/
def execPaddockWarmRestore (p : Fin 64) (s : State) : Host.Outcome State Fault Refusal := onBlk (warmRestore p.val) s

end Sys2Proof.Machine
end

