-- ==== Sys2Proof/Machine/Fabric.lean ====
section
/-! DEFINITION. The fabric: neighbours, discovery, tables, the transport, reservations, and joining the parts of a split
(R238, R239, R368 to R389). -/

namespace Sys2Proof.Machine

/-! ### Links (R370, R371, R380) -/

/-- Takes the oldest waiting packet of a type and link out of the list of those that have arrived. -/
def popPkt (b : Block) (l ty : Nat) : Block :=
  fabMod b (fun f => { f with rxq := f.rxq.eraseP (fun e => decide (e.1 = l) && decide (e.2.type = ty)) })

/-- Every link that is in fabric state, and those that are unadmitted as well where asked. -/
def fabricLinks (b : Block) (open_ : Bool) : List Nat :=
  ((List.range 32).flatMap (portLinks b)).filter (fun l => decide ((fpGet b l).st = 2) || (open_ && decide ((fpGet b l).st = 4)))

/-- Sends a message to the neighbour on a link, with the hops that it has taken. -/
def toLink (b : Block) (l hops : Nat) (m : FabMsg) : Block := sendOn b l { nbrHdr b with hops := hops } m

/-- Sends a message on the links given, but for one. -/
def flood (b : Block) (ls : List Nat) (not : Option Nat) (hops : Nat) (m : FabMsg) : Block :=
  (ls.filter (fun l => decide (some l ≠ not))).foldl (fun b l => toLink b l hops m) b

/-- A packet that has taken 15 hops goes no further (R369). -/
def hopLimit (b : Block) : Block := raise b 0x3A5 corrected 0 0 0 0 .none

/-- This module acts as its plane's fabric master (R372, R375). -/
def actsMaster (b : Block) : Bool := bit (regGet b 0x300000) 0 && decide (b.fab.state ≠ 4)

/-- The node ID that a module reports: the one it holds, otherwise that of the settings store (R373, R374). -/
def storedNode (b : Block) : Option (BitVec 12) :=
  match b.fab.node with
  | some n => some (BitVec.ofNat 12 n)
  | none => (bankNode b).map (BitVec.ofNat 12)

/-- The serial numbers of the neighbours, each once, in link order: what the records' indexes refer to (R373, log 134). -/
def nbrSerials (b : Block) : List Dword :=
  ((List.range 32).flatMap (portLinks b)).foldl (fun ns l =>
    let x := fpGet b l
    if x.st < 2 ∨ ns.contains x.serial then ns else ns ++ [x.serial]) []

/-- The records of a port in a `REPORT`: of each of its links the state, the neighbour's port, the wavelength, and the index of the
neighbour's serial number (R373, log 134). -/
def portRecords (b : Block) (p : Nat) : List (Nat × Word) :=
  (portLinks b p).map (fun l =>
    let x := fpGet b l
    (p, at_ 0 x.st ||| at_ 3 (x.port % 32) ||| at_ 8 (waveOf l) ||| at_ 12 ((nbrSerials b).idxOf x.serial)))

/-- This module's `REPORT` with the given records. -/
def ownReport (b : Block) (ports : List (Nat × Word)) : ReportPkt :=
  { serial := serialNo b, node := storedNode b, hops := 0, isMaster := actsMaster b, epoch := BitVec.ofNat 16 b.fab.epoch,
    nbrs := if ports = [] then [] else nbrSerials b, ports := ports }

/-- The records of every port. -/
def allRecords (b : Block) : List (Nat × Word) := (List.range 32).flatMap (portRecords b)

/-! ### `HELLO` (R370, R371) -/

/-- The `HELLO` timer of a link. -/
def helloTick (l : Nat) (b : Block) : Block := if (lpGet b l).st = 2 then sendHello b l else b

/-- A master starts discovery (R372, R373 step 1). -/
def discover (b : Block) : Block :=
  let e := (b.fab.epoch + 1) % 65536
  let b := fabMod b (fun f => { f with epoch := e, parent := none, master := serialNo b, paths := [], answered := [], sentTo := [],
                                       state := 1, fresh := true })
  let b := fabMod b (fun f => { f with reports := [ownReport b (allRecords b)] })
  flood b (fabricLinks b false) none 0 (.discover (serialNo b) (BitVec.ofNat 16 e))

/-- A master whose CXL link and fabric ports are ready starts discovery (R372). -/
def maybeDiscover (b : Block) : Block :=
  if actsMaster b && isReady b 1 0 && decide (b.fab.state = 0) && decide (fabricLinks b false ≠ []) then discover b else b

/-- The fabric state that a neighbour's `HELLO` gives: a neighbour without an ID is unadmitted once discovery has ended (R371, R374,
R393). -/
def helloState (b : Block) (l : Nat) (h : HelloPkt) : Nat :=
  let own := (fpGet b l).planeB
  if pairPort b = some l then (if h.planeB ≠ own then 3 else 1)
  else if h.planeB ≠ own then 5
  else if h.node.isNone && decide (2 ≤ b.fab.state) then 4
  else 2

/-- A `HELLO` arrives. -/
def takeHello (l : Nat) (h : HelloPkt) (b : Block) : Block :=
  let b := popPkt b l 1
  if (lpGet b l).st ≠ 2 ∨ (fpGet b l).st = 0 then b
  else
    let st := helloState b l h
    let was := fpGet b l
    let log := decide (st = 5) && !was.logged
    let x : FPort := { st := st, node := (h.node.getD 0).toNat, valid := h.node.isSome, port := h.port % 32,
                       wave := (h.routed.getD 0).val, serial := h.serial, logged := was.logged || log, planeB := was.planeB }
    let b := fpPut b l x
    let b := if log then raise b 0x3A3 corrected 0 0 0 0 .none else b
    maybeDiscover b

/-! ### Discovery (R372 to R376) -/

/-- A write to `FABRIC_CTRL` (R372, R390). -/
def fabricCtrl (w : Word) (b : Block) : Block :=
  if !writeServed b then b
  else
    let was := bit (regGet b 0x300000) 0
    let b := regStore b 0x300000 0x300000 w
    let b := if bit w 0 then b else fabMod b (fun f => { f with state := if f.state = 4 then 2 else f.state })
    if !actServed b then b
    else if bit w 1 && actsMaster b && isReady b 1 0 then discover b
    else if was then b else maybeDiscover b

/-- Is a discovery newer than the one joined last, or its master the one to follow (R373, R375)? -/
def newer (b : Block) (master : Dword) (epoch : BitVec 16) : Bool :=
  let d := (epoch.toNat + 65536 - b.fab.epoch) % 65536
  if b.fab.master = 0 then true
  else if master = b.fab.master then decide (1 ≤ d) && decide (d < 32768)
  else decide (master.toNat < b.fab.master.toNat)

/-- A `DISCOVER` arrives (R373 steps 2 and 3, R375). -/
def takeDiscover (l : Nat) (master : Dword) (epoch : BitVec 16) (b : Block) : Block :=
  let hops := pktHops b l 2
  let b := popPkt b l 2
  let own := serialNo b
  if !carries (fpGet b l).st 2 ∨ master = own ∨ !newer b master epoch ∨ (actsMaster b ∧ own.toNat < master.toNat) then b
  else
    let b := if actsMaster b then raise (fabMod b (fun f => { f with state := 4 })) 0x3A1 corrected 0 0 0 0 .none else b
    let b := fabMod b (fun f => { f with epoch := epoch.toNat, parent := some l, master := master, paths := [],
                                         state := if f.state = 4 then 4 else 1 })
    let b := if 15 ≤ hops then hopLimit b else flood b (fabricLinks b true) (some l) (hops + 1) (.discover master epoch)
    toLink b l 0 (.report (ownReport b (allRecords b)))

/-- A link with automatic choice of its rule takes the error-rate rule in a fabric of more than 64 modules (R356, R376). -/
def bigFabric (b : Block) (l : Nat) : Block :=
  let x := lpGet b l
  if 64 < b.fab.act.modules ∧ (x.rule = 0 ∨ x.rule = 3) ∧ x.st = 2 then lpPut b l { x with rateRule := true } else b

/-- `COMMIT` takes effect: the tables come into force, and the fabric runs (R373 step 7, R374, R376). -/
def commitTables (b : Block) (epoch : Nat) : Block :=
  let b := fabMod b (fun f => if f.inact.epoch = epoch then { f with act := f.inact } else { f with act := { f.act with epoch := epoch } })
  let held := b.fab.node.isSome
  let b := fabMod b (fun f => { f with state := if f.state = 4 then 4 else if held then 2 else 3 })
  let b := if held then b else raise b 0x3A4 corrected 0 0 0 0 .none
  let b := ((List.range 32).flatMap (portLinks b)).foldl bigFabric b
  if held && isReady b 1 0 then setReady b 6 0 true else b

/-- The master has every answer: it sends `COMMIT` (R373 step 7). -/
def masterCommit (b : Block) : Block :=
  let e := b.fab.inact.epoch
  commitTables (flood b (fabricLinks b true) none 0 (.commit (BitVec.ofNat 16 e))) e

/-- A new `REPORT` beside the one that the master holds of the module: its records replace those of the same ports, and the indexes of
its own serial numbers follow those held (R373, R376). -/
def mergeReport (b : Block) (r : ReportPkt) : ReportPkt :=
  match b.fab.reports.find? (fun e => e.serial = r.serial) with
  | none => r
  | some o =>
    let kept := o.ports.filter (fun e => decide (e.1 ∉ r.ports.map Prod.fst))
    if kept = [] then r
    else { r with nbrs := o.nbrs ++ r.nbrs, ports := kept ++ r.ports.map (fun e => (e.1, e.2 + BitVec.ofNat 32 (2 ^ 12 * o.nbrs.length))) }

/-- The master holds a new `REPORT` (R373 step 4, R376). -/
def holdReport (b : Block) (r : ReportPkt) : Block :=
  fabMod b (fun f => { f with reports := f.reports.filter (fun e => decide (e.serial ≠ r.serial)) ++ [mergeReport b r], fresh := true })

/-- A `REPORT` arrives (R369, R373 steps 3 and 6, R375, R376). -/
def takeReport (l : Nat) (r : ReportPkt) (b : Block) : Block :=
  let b := popPkt b l 3
  if !carries (fpGet b l).st 3 then b
  else if !actsMaster b && decide (15 ≤ r.hops) then hopLimit b
  else
    let b := if r.ports = [] then b
      else fabMod b (fun f => { f with paths := f.paths.filter (fun e => decide (e.1 ≠ r.serial)) ++ [(r.serial, l)] })
    if actsMaster b then
      if r.isMaster ∧ r.serial.toNat < (serialNo b).toNat then
        raise (fabMod b (fun f => { f with state := 4 })) 0x3A1 corrected 0 0 0 0 .none
      else if r.ports = [] then
        if r.epoch.toNat ≠ b.fab.epoch then b
        else
          let b := fabMod b (fun f => { f with answered := f.answered.filter (fun s => decide (s ≠ r.serial)) ++ [r.serial] })
          if b.fab.sentTo ≠ [] ∧ b.fab.sentTo.all (fun s => b.fab.answered.contains s) then
            masterCommit (fabMod b (fun f => { f with sentTo := [] }))
          else b
      else
        holdReport b r
    else
      match b.fab.parent with
      | some q => toLink b q (r.hops + 1) (.report { r with hops := r.hops + 1 })
      | none => b

/-- Puts a report into the order of hop distance and then serial number. -/
def insReport (r : ReportPkt) : List ReportPkt → List ReportPkt
  | [] => [r]
  | x :: l => if r.hops < x.hops ∨ (r.hops = x.hops ∧ r.serial.toNat ≤ x.serial.toNat) then r :: x :: l else x :: insReport r l

/-- Does a module keep the ID that it reports (R374)? -/
def keepsId (rs : List ReportPkt) (r : ReportPkt) : Bool :=
  match r.node with
  | some _ => rs.all (fun s => decide (s.node ≠ r.node) || decide (r.serial.toNat ≤ s.serial.toNat))
  | none => false

/-- Gives the lowest free IDs in order; none once 4,096 are given. -/
def giveIds (kept : List Nat) : List ReportPkt → Nat → List (Dword × Option Nat)
  | [], _ => []
  | r :: l, n =>
    match (List.range 4096).find? (fun i => decide (n ≤ i) && !kept.contains i) with
    | some i => (r.serial, some i) :: giveIds kept l (i + 1)
    | none => (r.serial, none) :: giveIds kept l 4096

/-- The master's assignment of node IDs (R374); its own hop distance is 0, every other module's one more than its
report's hops. -/
def assignIds (b : Block) : List (Dword × Option Nat) :=
  let rs := b.fab.reports
  let own := serialNo b
  let kept := (rs.filter (keepsId rs)).map (fun r => (r.serial, (r.node.getD 0).toNat))
  let rest := (rs.filter (fun r => !keepsId rs r)).map (fun r => { r with hops := if r.serial = own then 0 else r.hops + 1 })
  kept.map (fun e => (e.1, some e.2)) ++ giveIds (kept.map (·.2)) (rest.foldr insReport []) 0

/-- The table of one module as the plan gives it, with the epoch and the module count. -/
def planned (plan : List TablePkt) (target : Dword) (epoch modules : Nat) (id : Option Nat) : TablePkt :=
  let t := (plan.find? (fun t => t.target = target)).getD ⟨target, 0, 0, [], [], [], none⟩
  { t with epoch := BitVec.ofNat 16 epoch, modules := modules, id := id.map (BitVec.ofNat 12) }

/-- A table as it is stored; the entry of the module's own ID has `LOCAL` set (R377). -/
def tablesOf (t : TablePkt) : Tables :=
  let dest := t.dest.foldl (fun (m : Tbl Word) e => if e.1 < 4096 then tput 0 m e.1 (e.2 &&& 0x1FFFFFF) else m) []
  { dest := match t.id with
      | some i => tput 0 dest i.toNat (setBit (tget 0 dest i.toNat) 24 true)
      | none => dest
    turn := t.turn.foldl (fun (m : Tbl Word) e => if e.1 % 64 < 32 ∧ e.1 < 128 then tput 0 m e.1 e.2 else m) []
    rlink := t.rlink.foldl (fun (m : Tbl (BitVec 5)) e => if e.1 < 131072 then tput 0 m e.1 e.2 else m) []
    modules := min 4096 t.modules, epoch := t.epoch.toNat }

/-- The module that another has taken an ID from logs the conflict (R374). -/
def idConflict (b : Block) (id : Option Nat) : Block :=
  match storedNode b with
  | some n => if some n.toNat = id then b else raise b 0x3A2 corrected 0 0 0 0 .none
  | none => b

/-- This module takes a node ID; one that reported another logs the conflict (R374). -/
def takeId (b : Block) (id : Nat) : Block := fabMod (idConflict b (some id)) (fun f => { f with node := some id })

/-- A report with the ID that its module has been given, which it keeps from then on (R376). -/
def knownId (ids : List (Dword × Option Nat)) (r : ReportPkt) : ReportPkt :=
  { r with node := ((ids.find? (fun i => i.1 = r.serial)).bind (·.2)).map (BitVec.ofNat 12) }

/-- 5 ms have passed since the last new report: the master assigns IDs and distributes the tables, which it has computed
as the plan states (R373 steps 4 and 5, R374, R376). -/
def quietExpiry (plan : List TablePkt) (b : Block) : Block :=
  if !actsMaster b ∨ (b.fab.state ≠ 1 ∧ b.fab.state ≠ 2) ∨ b.fab.reports = [] ∨ !b.fab.fresh then b
  else
    let own := serialNo b
    let e := if b.fab.state = 1 then b.fab.epoch else (b.fab.epoch + 1) % 65536
    let ids := assignIds b
    let n := b.fab.reports.length
    let b := match (ids.find? (fun i => i.1 = own)).bind (·.2) with
      | some i => takeId b i
      | none => if b.fab.node.isNone then idConflict b none else b
    let t := planned plan own e n (b.fab.node)
    let others := ids.filter (fun i => decide (i.1 ≠ own))
    let sent := (others.filter (fun i => i.2.isSome)).map (·.1)
    let b := fabMod b (fun f => { f with epoch := e, inact := tablesOf t, answered := [], sentTo := sent, fresh := false,
                                         reports := f.reports.map (knownId ids) })
    let b := others.foldl (fun b i =>
      match b.fab.paths.find? (fun q => q.1 = i.1) with
      | some q =>
        let b := match i.2 with
          | some id => toLink b q.2 0 (.assign i.1 (BitVec.ofNat 12 id))
          | none => b
        toLink b q.2 0 (.table (planned plan i.1 e n i.2))
      | none => b) b
    if sent = [] then masterCommit b else b

/-- A packet that a target's tables travel by goes on down the link that its report arrived on (R369, R373 step 5). -/
def passDown (b : Block) (target : Dword) (hops : Nat) (m : FabMsg) : Block :=
  if 15 ≤ hops then hopLimit b
  else
    match b.fab.paths.find? (fun q => q.1 = target) with
    | some q => toLink b q.2 (hops + 1) m
    | none => b

/-- An `ASSIGN` arrives (R373 step 5, R374). -/
def takeAssign (l : Nat) (target : Dword) (id : BitVec 12) (b : Block) : Block :=
  let hops := pktHops b l 4
  let b := popPkt b l 4
  if !carries (fpGet b l).st 4 then b
  else if target = serialNo b then takeId b id.toNat
  else passDown b target hops (.assign target id)

/-- A `TABLE` arrives (R373 steps 5 and 6); one that gives this module no ID leaves it unadmitted (R374). -/
def takeTable (l : Nat) (t : TablePkt) (b : Block) : Block :=
  let hops := pktHops b l 5
  let b := popPkt b l 5
  if !carries (fpGet b l).st 5 then b
  else if t.target = serialNo b then
    let b := if t.id.isNone && b.fab.node.isNone then idConflict b none else b
    let b := fabMod b (fun f => { f with inact := tablesOf t, epoch := t.epoch.toNat })
    match b.fab.parent with
    | some q => toLink b q 0 (.report (ownReport b []))
    | none => b
  else passDown b t.target hops (.table t)

/-- A `COMMIT` arrives (R373 step 7). -/
def takeCommit (l : Nat) (epoch : BitVec 16) (b : Block) : Block :=
  let hops := pktHops b l 6
  let b := popPkt b l 6
  if !carries (fpGet b l).st 6 ∨ (b.fab.act.epoch = epoch.toNat ∧ 2 ≤ b.fab.state) then b
  else
    let b := if 15 ≤ hops then hopLimit b else flood b (fabricLinks b true) (some l) (hops + 1) (.commit epoch)
    commitTables b epoch.toNat

/-- A port's state is reported to the master (R376). -/
def reportPort (p : Nat) (b : Block) : Block :=
  if actsMaster b then holdReport b (ownReport b (allRecords b))
  else
    match b.fab.parent with
    | some q => toLink b q 0 (.report (ownReport b (portRecords b p)))
    | none => b

/-! ### Joining a split (R238, R239) -/

/-- Do this module's part and its peer's message join (R238)? -/
def joins (b : Block) (p : Nat) (m : JoinMsg) : Bool :=
  let x := padGet b p
  let o := joinMsg b p
  decide (x.env.peerHash = m.hash) && decide (m.peerHash = x.hash) && decide (x.env.sessionPart ≠ m.sessionPart)
    && decide (o.spanning = m.spanning) && decide ((o.home &&& o.spanning) &&& (m.home &&& m.spanning) = 0)
    && decide (((o.home ||| m.home) &&& o.spanning) = o.spanning)

/-- A join message reaches a part that is joining: it enters ready, or answers, and raises `SPLIT_MISMATCH` once; its packet's hops show
the path (R258). -/
def splitJoin (p : Nat) (j : JoinIn) (b : Block) : Block :=
  let x := padGet b p
  let m := j.msg
  if x.st ≠ .joining then b
  else if joins b p m then
    padState (padPut b p { x with joined := true, peerPad := m.paddock.toNat, answered := true, peerDrain := false, peerBusy := true,
                                  hops := j.hops + 1 }) p .ready
  else
    let b := padPut b p { x with mismatch := true, answered := true, hops := j.hops + 1 }
    let b := if x.answered then b else askPeer b p (.join p (joinMsg b p)) false
    if x.mismatch then b else raise b 0x111 contained (padD0 p) 0 0 0 (.paddock p)

/-- The join message is repeated until the peer answers. -/
def joinRepeat (p : Nat) (b : Block) : Block :=
  if (padGet b p).st = .joining && !(padGet b p).answered then askPeer b p (.join p (joinMsg b p)) false else b

/-- The part that a peer's message names by the peer's paddock number. -/
def localPart (b : Block) (src pad : Nat) : Option Nat :=
  (loadedPads b).find? (fun p =>
    let x := padGet b p
    x.env.split && x.joined && decide (x.peer = src) && decide (x.peerPad = pad))

/-- The part that a join message is for: one whose image the peer names, otherwise one that still joins. -/
def joinPart (b : Block) (src : Nat) (m : JoinMsg) : Option Nat :=
  let l := (loadedPads b).filter (fun p => (padGet b p).env.split && decide ((padGet b p).peer = src))
  match l.find? (fun p => decide ((padGet b p).hash = m.peerHash)) with
  | some p => some p
  | none => l.find? (fun p => decide ((padGet b p).st = .joining))

/-- Executes a request that has taken a number of hops (R200, R238, R239, R385). -/
def execute (b : Block) (src hops : Nat) (m : TMsg) : Block :=
  match m with
  | .barrierArrive pad n =>
    match localPart b src pad with
    | some p => closeRound (padMod b p (fun x => x.setBar n ((x.bar n).count (x.bar n).opened))) p n
    | none => b
  | .barrierRelease pad n =>
    match localPart b src pad with
    | some p => closeRound (releaseBar (padMod b p (fun x => x.setBar n (x.bar n).complete)) p n) p n
    | none => b
  | .join _ m =>
    match joinPart b src m with
    | some p => if (padGet b p).st = .joining then splitJoin p ⟨m, hops⟩ b
      else if (padGet b p).joined then askPeer b p (.join p (joinMsg b p)) false else b
    | none => b
  | .draining pad =>
    match localPart b src pad with
    | some p =>
      let b := padMod b p (fun x => { x with peerDrain := true })
      if (padGet b p).env.sessionPart && padIdle b p then askPeer b p (.served p) false else b
    | none => b
  | .served pad =>
    match localPart b src pad with
    | some p => padMod b p (fun x => { x with peerBusy := false })
    | none => b
  | .crossing pad bytes =>
    match localPart b src pad with
    | some p => if 16384 < bytes then raise b 0x3A7 contained (padD0 p) 0 0 0 (.paddock p) else b
    | none => b
  | .noContext => b
  | .done => b

/-! ### Transport (R381 to R383) -/

/-- Key of a responder context. -/
def respKey (src flow : Nat) : Nat := 8192 * src + flow

/-- Sends a response. -/
def respond (b : Block) (k : FabPkt) (m : TMsg) : Block :=
  route b true ⟨k.src.toNat, b.fab.node.getD 0, 0, false, k.flow.toNat, 0, k.txid.toNat⟩ (.response m)

/-- A new transaction of a flow is executed once, and its response cached and sent (R383). -/
def answerNew (b : Block) (k : FabPkt) (x : Resp) : Block :=
  let b := execute b k.src.toNat k.hops.toNat k.msg
  let x := { x with newest := k.txid.toNat, cache := ((k.txid.toNat, TMsg.done) :: x.cache).take 256 }
  respond (fabMod b (fun f => { f with resp := tput none f.resp (respKey k.src.toNat k.flow.toNat) (some x) })) k .done

/-- A packet that a row brings to a module that is not its destination is forwarded (R369, R379). -/
def relay (b : Block) (l : Nat) (vc : Bool) (k : FabPkt) (m : FabMsg) : Block :=
  if k.hops = 15 then hopLimit b
  else
    match nextHop b vc (portOf l) k.src.toNat k.dst.toNat k.flow.toNat k.retry.toNat with
    | some q =>
      let h : Hdr := ⟨k.dst.toNat, k.src.toNat, k.hops.toNat + 1, k.res, k.flow.toNat, k.retry.toNat, k.txid.toNat⟩
      linkSend (emit b (.packet q m)) q vc (packetBytes h m)
    | none => noRoute b

/-- A `REQUEST` arrives (R381, R383). -/
def takeRequest (l : Nat) (k : FabPkt) (b : Block) : Block :=
  let b := popPkt b l 7
  if !carries (fpGet b l).st 7 then b
  else if b.fab.node ≠ some k.dst.toNat then relay b l false k (.request k.msg)
  else if !k.ecrcOk then regCount b 0x30030C 0 32 1
  else
    match tget none b.fab.resp (respKey k.src.toNat k.flow.toNat) with
    | none =>
      if 8192 ≤ b.fab.resp.length then respond b k .noContext else answerNew b k ⟨k.txid.toNat, []⟩
    | some x =>
      let d := (k.txid.toNat + 2 ^ 32 - x.newest) % 2 ^ 32
      if 1 ≤ d ∧ d < 2 ^ 31 then answerNew b k x
      else if d = 0 ∨ 2 ^ 32 - 255 ≤ d then
        match x.cache.find? (fun e => e.1 = k.txid.toNat) with
        | some e => respond b k e.2
        | none => b
      else b

/-- A slot's part leaves the step that a paddock has in progress. -/
def dropPart (b : Block) (p n : Nat) : Block :=
  padMod b p (fun x => { x with step := x.step.map (fun s => { s with parts := s.parts.filter (fun e => decide (e.slot ≠ n)) }) })

/-- The turn that a slot runs on a split is closed with `TRANSPORT_LOST`: the step in progress commits nothing for it, and its round
ends (R32, R382). -/
def loseTurn (b : Block) (n : Nat) : Block :=
  let z := slotGet b n
  match z.turns with
  | t :: _ =>
    if t.ended.isSome then b
    else endTurn (slotMod (dropPart (dropPart b z.paddock n) z.draft n) n (fun z => { z with level := 0, tree := [], drafted := 0 })) n 0x0403
  | [] => b

/-- The transport of a flow is lost (R239, R382): its work's running turns close, and the split part joins again. -/
def flowLost (b : Block) (f : Nat) : Block :=
  match flowGet b f with
  | none => b
  | some x =>
    let b := flowPut b f (some { x with asked := [], held := [] })
    let work := workingSlots b x.pad true
    let b := raise (regCount b 0x300308 0 32 1) 0x3A0 contained 0 0 0 0 (.sessions work)
    let b := work.foldl loseTurn b
    let y := padGet b x.pad
    let b := padPut b x.pad { y with joined := false, answered := false, peerBusy := false }
    if y.st = .ready then padState b x.pad .joining
    else if y.back = .ready ∧ (y.st = .fenced ∨ y.st = .restoring) then padMod b x.pad (fun x => { x with back := .joining })
    else b

/-- A `RESPONSE` arrives (R381, R382). -/
def takeResponse (l : Nat) (k : FabPkt) (b : Block) : Block :=
  let b := popPkt b l 8
  if !carries (fpGet b l).st 8 then b
  else if b.fab.node ≠ some k.dst.toNat then relay b l true k (.response k.msg)
  else if !k.ecrcOk then regCount b 0x30030C 0 32 1
  else
    let f := k.flow.toNat
    match flowGet b f with
    | none => b
    | some x =>
      if x.asked.all (fun a => decide (a.txid ≠ k.txid.toNat)) then b
      else if k.msg = .noContext then flowLost b f
      else
        let y := { x with asked := x.asked.filter (fun a => decide (a.txid ≠ k.txid.toNat)), held := x.held.drop 1 }
        let b := flowPut b f (some y)
        match x.held with
        | (m, r) :: _ => ask b f m r
        | [] => b

/-- 20 µs without a response since it was sent last: the request is sent again with `RETRY` one higher, until 10 ms have passed since
it was sent first (R382). -/
def resend (f txid : Nat) (b : Block) : Block :=
  match flowGet b f with
  | none => b
  | some x =>
    match x.asked.find? (fun a => a.txid = txid) with
    | none => b
    | some a =>
      if b.time < a.last + 20000 ∨ a.first + 10000000 ≤ b.time then b
      else
        let a := { a with retry := a.retry + 1, last := b.time }
        let x := { x with asked := x.asked.map (fun c => if c.txid = txid then a else c) }
        sendAsked (regCount (flowPut b f (some x)) 0x300304 0 32 1) f x a

/-- 10 ms after the first send of a request without a response (R382). -/
def transportLost (f : Nat) (b : Block) : Block :=
  match flowGet b f with
  | some x => if x.asked.all (fun a => decide (b.time < a.first + 10000000)) then b else flowLost b f
  | none => b

/-! ### Reservations (R386) -/

/-- The answer to a request that this module passed on goes back; a refusal releases the hop that was granted. -/
def resvAnswer (b : Block) (r : ResvPkt) (ok : Bool) (hops : Nat) : Block :=
  let same := fun (a : Asking) => decide (a.flow = r.flow.toNat) && decide (a.src = r.src.toNat)
  match b.fab.asking.find? same with
  | none => b
  | some a =>
    let b := fabMod b (fun f => { f with asking := f.asking.eraseP same })
    let b := if ok then b
      else match b.fab.resv.find? (fun e => e.isOf r.flow.toNat r.src.toNat) with
        | some e => setResv b { e with rate := a.old }
        | none => b
    resvBack b a.input r ok (hops + 1) r.hops

/-- A reservation is released along its path. -/
def resvRelease (b : Block) (r : ResvPkt) (hops : Nat) : Block :=
  match b.fab.resv.find? (fun e => e.isOf r.flow.toNat r.src.toNat) with
  | some e => sendOn (setResv b { e with rate := 0 }) e.port (resvHdr e.dst e.src e.flow (hops + 1)) (.resv r)
  | none => b

/-- A `RESV` arrives (R369, R386). -/
def takeResv (l : Nat) (r : ResvPkt) (b : Block) : Block :=
  let hops := pktHops b l 9
  let b := popPkt b l 9
  let ends := decide (b.fab.node = some (if r.answer.isSome then r.src.toNat else r.dst.toNat))
  if !carries (fpGet b l).st 9 then b
  else if !ends && decide (15 ≤ hops) then hopLimit b
  else
    match r.answer with
    | some ok => resvAnswer b r ok hops
    | none =>
      if r.release then resvRelease b r hops
      else
        match resvHop b l hops r with
        | (b, some ok) => resvBack b l r ok 0 (hops + 1)
        | (b, none) => b

/-! ### Meanings -/

/-- `HELLO_TIMER` (R370). -/
def execHelloTimer (l : LinkNo) (s : State) : Host.Outcome State Fault Refusal := onBlk (helloTick l.val) s

/-- `HELLO` (R371). -/
def execHello (l : LinkNo) (h : HelloPkt) (s : State) : Host.Outcome State Fault Refusal := onBlk (takeHello l.val h) s

/-- `FABRIC_DISCOVER_WRITE` (R372). -/
def execFabricDiscoverWrite (w : Word) (s : State) : Host.Outcome State Fault Refusal := onBlk (fabricCtrl w) s

/-- `DISCOVER` (R373). -/
def execDiscover (l : LinkNo) (master : Dword) (epoch : BitVec 16) (s : State) : Host.Outcome State Fault Refusal :=
  onBlk (takeDiscover l.val master epoch) s

/-- `REPORT` (R373). -/
def execReportMsg (l : LinkNo) (r : ReportPkt) (s : State) : Host.Outcome State Fault Refusal := onBlk (takeReport l.val r) s

/-- `DISCOVERY_QUIET_EXPIRY` (R374). -/
def execDiscoveryQuietExpiry (plan : List TablePkt) (s : State) : Host.Outcome State Fault Refusal :=
  onBlk (quietExpiry plan) s

/-- `ASSIGN` (R374). -/
def execAssignMsg (l : LinkNo) (target : Dword) (id : BitVec 12) (s : State) : Host.Outcome State Fault Refusal :=
  onBlk (takeAssign l.val target id) s

/-- `TABLE` (R373). -/
def execTableMsg (l : LinkNo) (t : TablePkt) (s : State) : Host.Outcome State Fault Refusal := onBlk (takeTable l.val t) s

/-- `COMMIT` (R373). -/
def execCommitMsg (l : LinkNo) (epoch : BitVec 16) (s : State) : Host.Outcome State Fault Refusal :=
  onBlk (takeCommit l.val epoch) s

/-- `PORT_STATE_REPORT` (R376). -/
def execPortStateReport (p : Fin 32) (s : State) : Host.Outcome State Fault Refusal := onBlk (reportPort p.val) s

/-- `REQUEST` (R383). -/
def execRequestMsg (l : LinkNo) (k : FabPkt) (s : State) : Host.Outcome State Fault Refusal := onBlk (takeRequest l.val k) s

/-- `RESPONSE` (R382). -/
def execResponseMsg (l : LinkNo) (k : FabPkt) (s : State) : Host.Outcome State Fault Refusal := onBlk (takeResponse l.val k) s

/-- `TRANSPORT_RESEND` (R382). -/
def execTransportResend (flow : Fin 8192) (txid : Word) (s : State) : Host.Outcome State Fault Refusal :=
  onBlk (resend flow.val txid.toNat) s

/-- `TRANSPORT_LOST` (R382). -/
def execTransportLost (flow : Fin 8192) (s : State) : Host.Outcome State Fault Refusal := onBlk (transportLost flow.val) s

/-- `RESV` (R386). -/
def execResv (l : LinkNo) (r : ResvPkt) (s : State) : Host.Outcome State Fault Refusal := onBlk (takeResv l.val r) s

/-- `SPLIT_JOIN_MESSAGE` (R238). -/
def execSplitJoinMessage (p : Fin 64) (m : JoinIn) (s : State) : Host.Outcome State Fault Refusal :=
  onBlk (splitJoin p.val m) s

/-- `SPLIT_JOIN_REPEAT` (R238). -/
def execSplitJoinRepeat (p : Fin 64) (s : State) : Host.Outcome State Fault Refusal := onBlk (joinRepeat p.val) s

end Sys2Proof.Machine
end

