-- ==== Sys2Proof/Machine/Sec.lean ====
section
/-! DEFINITION. Fuses, firmware, attestation and the settings store (R482 to R503). -/

namespace Sys2Proof.Machine

/-- Changes fuses, flash, store and signing state. -/
def secMod (b : Block) (f : SecS → SecS) : Block := { b with sec := f b.sec }

/-- Blown fuses of a field. -/
def blown {n : Nat} (w : BitVec n) : Nat := ((List.range n).filter (fun i => bit w i)).length

/-! ### Fuses (R482 to R484, R488) -/

/-- The decoded owner policy word, as `SEC_POLICY` shows it (R484, R503). -/
def policyReg (p : BitVec 7) : Word :=
  at_ 0 (2 - blown (p.extractLsb' 0 2)) ||| at_ 2 (bit p 2).toNat ||| at_ 3 (3 - blown (p.extractLsb' 3 3)) ||| at_ 5 (bit p 6).toNat

/-- The debug level in force (R483, R484): 2 open, 1 authenticated, 0 closed. -/
def debugLevel (b : Block) : Nat :=
  if regFld b 0x330000 0 2 = 0 ∨ regFld b 0x330000 0 2 = 3 then 2 else regFld b 0x330004 0 2

/-- Is debug unlocked (R496)? -/
def unlocked (b : Block) : Bool := bit (regGet b 0x330048) 1

/-- Does the debug level permit access (R208, R472)? -/
def debugOpen (b : Block) : Bool := decide (debugLevel b = 2) || (decide (debugLevel b = 1) && unlocked b)

/-- Shows the thermometer fuses (R503). -/
def showTherm (b : Block) : Block :=
  (List.range 4).foldl (fun b w => regPut b (0x330030 + 4 * w) (b.sec.therm.extractLsb' (32 * w) 32)) b

/-- The fuses are read into their registers at a cold reset (R484, R503, R511). -/
def readFuses (b : Block) : Block :=
  let b := secMod b (fun s => { s with policyRead := s.policy })
  let s := b.sec
  let b := regPut (regPut b 0x330000 (at_ 0 s.lifecycle)) 0x330004 (policyReg s.policy)
  let b := (List.range 8).foldl (fun b w => regPut b (0x330010 + 4 * w) (s.root.extractLsb' (32 * w) 32)) b
  let b := regPut (regPut (showTherm b) 0x10 (s.serial.extractLsb' 0 32)) 0x14 (s.serial.extractLsb' 32 32)
  regPut (regPut b 0x8 s.step) 0x28 (at_ 0 48 ||| at_ 8 (if bit s.policy 6 then 0 else 64))

/-- Blows thermometer fuses, the lowest first, until `n` are blown. -/
def blowTherm (n : Nat) : Nat → BitVec 128 → BitVec 128
  | 0, t => t
  | k + 1, t =>
    if n ≤ blown t then t
    else
      match (List.range 128).find? (fun i => !bit t i) with
      | some i => blowTherm n k (t ||| BitVec.ofNat 128 (2 ^ i))
      | none => t

/-! ### Firmware bundles (R485 to R489) -/

/-- Bytes of a slot of the flash (R518). -/
def slotBase (s : Nat) : Nat := 8388608 * s

/-- `RELEASE` of a bundle header, 0 where its magic is not valid (R489). -/
def releaseOf (h : List Byte) : Nat := if leAt h 0 4 = 0x46575A53 then leAt h 4 4 else 0

/-- Total bytes of a bundle by its header (R485). -/
def bundleLen (h : List Byte) : Nat := 256 + leAt h 0x30 4 + leAt h 0x34 4 + leAt h 0x0C 4

/-- Does a bundle verify (R485, R486)? -/
def bundleOk (b : Block) (h key sig pay : List Byte) : Bool :=
  decide (leAt h 0 4 = 0x46575A53) && decide (leAt h 8 4 ≤ 128) && decide (bundleLen h ≤ 8388608)
    && decide (sha256Nat key = b.sec.root) && Config.hssParams key sig && Config.hssVerify key h sig
    && decide (sha256 pay = (h.drop 0x10).take 32)

/-- The status of a bundle (R486, R489): 0, `SIG_INVALID` or `ROLLBACK`. -/
def bundleStatus (b : Block) (l : List Byte) : Nat :=
  let h := l.take 256
  let k := leAt h 0x30 4
  let s := leAt h 0x34 4
  if l.length < bundleLen h
      ∨ !bundleOk b h ((l.drop 256).take k) ((l.drop (256 + k)).take s) ((l.drop (256 + k + s)).take (leAt h 0x0C 4)) then 0x0502
  else if leAt h 8 4 < blown b.sec.therm then 0x0503
  else 0

/-- The bundle in a slot. -/
def slotBundle (b : Block) (s : Nat) : List Byte :=
  let h := cellBytes b.sec.flash (slotBase s) 256
  if leAt h 0 4 = 0x46575A53 ∧ bundleLen h ≤ 8388608 then cellBytes b.sec.flash (slotBase s) (bundleLen h) else h

/-- The slots in the order in which the ROM tries them (R487). -/
def bootOrder (b : Block) : List Nat :=
  if releaseOf (cellBytes b.sec.flash (slotBase 0) 256) < releaseOf (cellBytes b.sec.flash (slotBase 1) 256) then [1, 0] else [0, 1]

/-- The ROM boots the first slot that passes, or stays in recovery (R487). -/
def bootRom (b : Block) : Block :=
  match (bootOrder b).find? (fun s => bundleStatus b (slotBundle b s) = 0) with
  | some s =>
    let l := slotBundle b s
    let back := decide ((bootOrder b).head? ≠ some s)
    let b := regPut b 0x330040 (at_ 0 (leAt l 8 4) ||| at_ 8 s ||| at_ 9 back.toNat)
    let b := regSet (regPut b 0x330044 (BitVec.ofNat 32 (leAt l 4 4))) 0x330048 0 1 0
    pwrMod (secMod b (fun x => { x with fwHead := l.take 256, fwKey := (l.drop 256).take (leAt l 0x30 4) }))
      (fun w => { w with recovery := false })
  | none =>
    let b := regSet (regPut (regPut b 0x330040 0) 0x330044 0) 0x330048 0 1 1
    pwrMod (secMod b (fun x => { x with fwHead := [], fwKey := [] })) (fun w => { w with recovery := true })

/-- Is the SECURE or STORE block served for a write: also in recovery (R505, R507)? -/
def secServed (b : Block) : Bool := isReady b 1 0 && !b.flt.fatal && (b.pwr.recovery || isReady b 0 0)

/-- The slot that an update writes (R489). -/
def updateSlot (b : Block) : Nat :=
  if b.pwr.recovery then
    (if releaseOf (cellBytes b.sec.flash (slotBase 0) 256) < releaseOf (cellBytes b.sec.flash (slotBase 1) 256) then 0 else 1)
  else 1 - regFld b 0x330040 8 1

/-- A firmware update is started: a failing bundle is refused; otherwise its slot is written, its header last. -/
def fwuGo (bundle : List Byte) (b : Block) : Block :=
  if b.sec.upd.isSome then b
  else
    let l := bundle.take (regFld b 0x330068 0 24)
    let st := bundleStatus b l
    if st ≠ 0 then regSet b 0x330070 16 16 st
    else
      let s := updateSlot b
      let l := l.take (bundleLen l)
      let body := List.replicate 256 0 ++ l.drop 256
      secMod b (fun x => { x with flash := putBytes x.flash (slotBase s) body, upd := some ⟨s, l.take 256⟩ })

/-- The thermometer advances to the running bundle's `SVN` (R488). -/
def arbDo (b : Block) : Block :=
  if b.pwr.recovery then b
  else
    let n := regFld b 0x330040 0 8
    showTherm (secMod b (fun x => { x with therm := blowTherm n 128 x.therm }))

/-- A write to `SEC_FWU_CTRL` (R488, R489, R503). -/
def fwuCtrl (w : Word) (bundle : List Byte) (b : Block) : Block :=
  if secServed b && decide (fld w 24 8 = 0x55) then
    let b := if bit w 1 then arbDo b else b
    if bit w 0 then fwuGo bundle b else b
  else b

/-- The write of a bundle and its read-back end. -/
def fwuDone (ok : Bool) (b : Block) : Block :=
  match b.sec.upd with
  | none => b
  | some u =>
    let b := secMod b (fun x => { x with upd := none, flash := if ok then putBytes x.flash (slotBase u.slot) u.header else x.flash })
    regSet b 0x330070 16 16 (if ok then 0 else 0x0501)

/-! ### The settings store (R498 to R502) -/

/-- The live values of the pace classes as the words of their registers. -/
def paceBytes (b : Block) : List Byte :=
  (List.range 16).flatMap (fun c =>
    let v := tget (0, 0, 0, false) b.sess.pace c
    bytesOf 4 v.1 ++ bytesOf 4 v.2.1 ++ bytesOf 4 (v.2.2.1 + 2 ^ 31 * v.2.2.2.toNat) ++ bytesOf 4 0)

/-- The body of a bank: every staged value as it stands (R499, R500). -/
def stagedBody (b : Block) : List Byte :=
  bytesOf 4 (regFld b 0x300008 0 13) ++ bytesOf 4 (regFld b 0x320010 0 2) ++ bytesOf 8 0 ++ paceBytes b
    ++ (List.range 64).flatMap (fun i => bytesOf 4 (regGet b (0x320018 + 2 ^ 22 * (i + 1))).toNat)
    ++ bytesOf 4 ((b.opt.held.map (fun n => 2 ^ n)).sum) ++ bytesOf 12 0
    ++ (List.range 4608).flatMap (fun i => bytesOf 2 (tget 0 b.opt.snap i))

/-- The values that name the settings store take what the bank in force holds (R249, R499, R508). -/
def loadBank (b : Block) : Block :=
  let w := fun o => BitVec.ofNat 32 (leNat (bankBytes b o 4))
  let b := regPut b 0x300008 (w 0x40 &&& 0x1FFF)
  let rule := fld (w 0x44) 0 2
  let b := regPut b 0x320010 (at_ 0 rule)
  let b := (List.range 32).foldl (fun b p => regSet b (linkBase p) 1 2 rule) b
  let b := (List.range 16).foldl (fun b c =>
    let o := 0x50 + 16 * c
    let i := w (o + 8)
    let b := regPut (regPut (regPut b (0x2C000 + 16 * c) (w o &&& 0xFFFFF)) (0x2C004 + 16 * c) (w (o + 4) &&& 0xFFFF))
      (0x2C008 + 16 * c) (i &&& 0x8001FFFF)
    let v := (fld (w o) 0 20, fld (w (o + 4)) 0 16, fld i 0 17, bit i 31)
    { b with sess := { b.sess with pace := tput (0, 0, 0, false) b.sess.pace c v } }) b
  let b := (List.range 64).foldl (fun b k => regPut b (0x320018 + 2 ^ 22 * (k + 1)) (w (0x150 + 4 * k))) b
  match bankInForce b with
  | some k =>
    let codes := (b.sec.store.filter (fun e => decide (bankBase k + 0x260 ≤ e.1) && decide (e.1 < bankBase k + 0x2660))).map
      (fun e => (e.1 - bankBase k - 0x260) / 2)
    let snap := codes.foldl (fun m i => tput 0 m i (leNat (cellBytes b.sec.store (bankBase k + 0x260 + 2 * i) 2))) []
    { b with opt := { b.opt with held := (List.range 8).filter (fun n => bit (w 0x250) n), snap := snap } }
  | none => b

/-- The receiver settings of physical CXL lane `n`: its four words of the board equalisation table where they are valid, otherwise the
stated ones (R524). -/
def eqLane (b : Block) (n : Nat) : EqLane :=
  let w := fun k => BitVec.ofNat 32 (leNat (bankBytes b (0x150 + 16 * n + 4 * k) 4))
  if bit (w 0) 31 then
    ⟨fld (w 0) 0 5, fld (w 0) 8 5, (List.range 8).map (fun i => ((w (1 + i / 4)).extractLsb' (8 * (i % 4)) 8).toInt), fld (w 3) 0 4⟩
  else ⟨12, 16, List.replicate 8 0, 4⟩

/-- The ROM reads the board equalisation table, at every start (R425, R524). -/
def readEq (b : Block) : Block := hostMod b (fun h => { h with eq := (List.range 16).map (eqLane b) })

/-- A store command fails with a cause (R501). -/
def storeFail (b : Block) (cause : Nat) : Block := regSet (regSet b 0x320004 8 4 cause) 0x320004 16 16 0x0501

/-- A store command starts (R492, R500, R501). -/
def storeGo (op : Nat) (b : Block) : Block :=
  if b.pwr.recovery then storeFail b 8
  else if b.sec.cmd.isSome then storeFail b 1
  else if b.flt.storeDown then storeFail b 3
  else
    match op with
    | 0 =>
      let k := match bankInForce b with
        | some k => 1 - k
        | none => 0
      let g := match bankInForce b with
        | some k => bankGen b k + 1
        | none => 1
      let body := stagedBody b
      let head := bytesOf 4 0x4254534F ++ bytesOf 4 1 ++ bytesOf 8 g ++ bytesOf 4 0x2660 ++ bytesOf 12 0 ++ sha256 body
      secMod b (fun s => { s with store := putBytes s.store (bankBase k + 0x40) body, cmd := some ⟨0, k, head⟩ })
    | 1 =>
      if b.sec.held.isNone then storeFail b 4
      else if 1048575 < b.sec.next / 1024 then storeFail b 5
      else secMod b (fun s => { s with cmd := some ⟨1, 0, []⟩ })
    | 2 => secMod b (fun s => { s with cmd := some ⟨2, 0, []⟩ })
    | _ => storeFail b 7

/-- A write to `STORE_CTRL` (R502, R507). -/
def storeCtrl (w : Word) (b : Block) : Block :=
  if secServed b && decide (fld w 24 8 = 0x53) && bit w 2 then storeGo (fld w 0 2) b else b

/-! ### Attestation (R490 to R497) -/

/-- The record of a reservation block (R493). -/
def resvRecord (k : Nat) : List Byte :=
  let l := bytesOf 4 0x56524C4F ++ bytesOf 4 k ++ List.replicate 52 0
  l ++ bytesOf 4 (crc32c l).toNat

/-- The block that record slot `i` validly holds (R493). -/
def slotBlock (b : Block) (i : Nat) : Option Nat :=
  let l := cellBytes b.sec.store (0x380000 + 64 * i) 64
  if leAt l 0 4 = 0x56524C4F ∧ (crc32c (l.take 60)).toNat = leAt l 60 4 then some (leAt l 4 4) else none

/-- The next leaf after a reset: that of the block above the highest one reserved (R492). -/
def resetLeaf (b : Block) : Block :=
  let slots := ((b.sec.store.filter (fun e => decide (0x380000 ≤ e.1))).map (fun e => (e.1 - 0x380000) / 64)).eraseDups
  let top := (slots.filterMap (slotBlock b)).foldl max 0
  secMod b (fun s => { s with next := 1024 * (top + 1), usable := false, held := none, waiting := [], challenge := none, cmd := none, upd := none })

/-- Entry of the paddock table of a report (R494). -/
def reportPad (b : Block) (p : Nat) : List Byte :=
  let x := padGet b p
  bytesOf 1 p ++ bytesOf 1 x.st.code ++ bytesOf 2 0 ++ bytesOf 4 x.stage ++ bytesOf 32 x.hash.toNat

/-- Bytes 0x000 to 0xAFF of a report (R494). -/
def reportBody (b : Block) (nonce : BitVec 256) (q : Nat) : List Byte :=
  let s := b.sec
  let stat := s.lifecycle + 2 ^ 8 * s.policyRead.toNat + 2 ^ 16 * blown s.therm + 2 ^ 24 * (unlocked b).toNat
    + 2 ^ 25 * (bit (regGet b 0x330040) 9).toNat + 2 ^ 26 * (bit (regGet b 0x330048) 0).toNat
  let pads := loadedPads b
  let fuses := bytesOf 32 s.root.toNat ++ bytesOf 8 s.serial.toNat ++ bytesOf 1 (2 ^ s.lifecycle - 1) ++ bytesOf 1 s.policyRead.toNat
    ++ bytesOf 16 s.therm.toNat
  bytesOf 4 0x5241444F ++ bytesOf 4 1 ++ bytesOf 8 s.serial.toNat ++ bytesOf 32 nonce.toNat ++ bytesOf 8 b.time ++ bytesOf 4 stat
    ++ bytesOf 4 (regGet b 0x330044).toNat ++ (if s.fwHead = [] then List.replicate 32 0 else sha256 s.fwHead) ++ sha256 fuses
    ++ bankBytes b 0x20 32 ++ bytesOf 8 (((List.range 64).map (fun p => if (padGet b p).tampered then 2 ^ p else 0)).sum)
    ++ bytesOf 4 s.ideGen ++ bytesOf 4 pads.length ++ bytesOf 4 q ++ List.replicate 76 0
    ++ pads.flatMap (reportPad b) ++ List.replicate (40 * (64 - pads.length)) 0

/-- Signs a report with the next leaf, and answers the request (R491, R494). -/
def signReport (b : Block) (nonce : BitVec 256) : Block :=
  let q := b.sec.next
  let l := reportBody b nonce q
  let b := secMod b (fun s => { s with next := q + 1, usable := s.usable && decide ((q + 1) % 1024 ≠ 0), held := none })
  emit b (.doe 2 0 (l ++ padTo 5396 (Config.attestSign b.sec.seed q l)))

/-- Is the DOE mailbox served (R487, R495)? -/
def doeServed (b : Block) : Bool := isReady b 1 0 && !b.flt.fatal && (b.pwr.recovery || isReady b 0 0)

/-- `GET_IDENTITY`. -/
def getIdentity (b : Block) : Block :=
  let s := b.sec
  let key := if s.lifecycle = 3 then Config.noKey else padTo 60 (Config.attestKey s.seed)
  emit b (.doe 1 0 (bytesOf 8 s.serial.toNat ++ key ++ bytesOf 4 s.lifecycle))

/-- `GET_REPORT`: signed at once, held for a reservation, or refused. -/
def getReport (nonce : BitVec 256) (b : Block) : Block :=
  let s := b.sec
  if s.lifecycle ≠ 2 then emit b (.doe 2 3 [])
  else if 2 ^ 30 ≤ s.next then emit b (.doe 2 2 [])
  else if s.usable then signReport b nonce
  else secMod b (fun s => { s with held := some nonce, heldAt := b.time })

/-- `DEBUG_CHALLENGE`. -/
def debugChallenge (b : Block) : Block :=
  if debugLevel b ≠ 1 then emit b (.doe 3 3 [])
  else
    let c := Config.challenge b.freeCtr
    emit (secMod { b with freeCtr := b.freeCtr + 1 } (fun s => { s with challenge := some c })) (.doe 3 0 (bytesOf 32 c.toNat))

/-- `DEBUG_UNLOCK`, with the challenge that was valid for it. -/
def debugUnlock (sig : List Byte) (valid : Option (BitVec 256)) (b : Block) : Block :=
  if debugLevel b ≠ 1 then emit b (.doe 4 3 [])
  else
    match valid with
    | none => emit b (.doe 4 4 [])
    | some c =>
      if b.sec.fwKey ≠ [] ∧ Config.hssVerify b.sec.fwKey (bytesOf 32 c.toNat ++ bytesOf 8 b.sec.serial.toNat) sig then
        emit (regSet b 0x330048 1 1 1) (.doe 4 0 [])
      else emit b (.doe 4 4 [])

/-- `POLICY_PROGRAM` (R484). -/
def policyProgram (w : Word) (ok : Bool) (b : Block) : Block :=
  if b.sec.lifecycle ≠ 1 then emit b (.doe 5 3 [])
  else if 128 ≤ w.toNat then emit b (.doe 5 5 [])
  else if ok then emit (secMod b (fun s => { s with policy := s.policy ||| w.extractLsb' 0 7 })) (.doe 5 0 [])
  else emit b (.doe 5 6 [])

/-- `LIFECYCLE_ADVANCE` (R483). -/
def lifecycleAdvance (w : Word) (ok : Bool) (b : Block) : Block :=
  let n := b.sec.lifecycle
  if 3 ≤ n then emit b (.doe 6 3 [])
  else if w.toNat ≠ n + 1 then emit b (.doe 6 5 [])
  else if ok then emit (regPut (secMod b (fun s => { s with lifecycle := n + 1 })) 0x330000 (at_ 0 (n + 1))) (.doe 6 0 [])
  else emit b (.doe 6 6 [])

/-- Handles a request of the DOE mailbox: it voids the challenge (R496). -/
def doeHandle (c : DoeCmd) (b : Block) : Block :=
  let valid := b.sec.challenge
  let b := secMod b (fun s => { s with challenge := none })
  match c with
  | .identity => getIdentity b
  | .report nonce => getReport nonce b
  | .challenge => debugChallenge b
  | .unlock sig => debugUnlock sig valid b
  | .policy w ok => policyProgram w ok b
  | .advance w ok => lifecycleAdvance w ok b

/-- A request reaches the mailbox: while one is held it waits, for one object is handled at a time, in order (R495). -/
def doe (c : DoeCmd) (b : Block) : Block :=
  if !doeServed b then b
  else if b.sec.held.isSome then secMod b (fun s => { s with waiting := s.waiting ++ [c] })
  else doeHandle c b

/-- Handles waiting requests, as far as none is held. -/
def doeRest : List DoeCmd → Block → Block
  | [], b => b
  | c :: r, b => if b.sec.held.isSome then secMod b (fun s => { s with waiting := c :: r }) else doeRest r (doeHandle c b)

/-- The held request has been answered: the ones that waited are handled. -/
def doeNext (b : Block) : Block := doeRest b.sec.waiting (secMod b (fun s => { s with waiting := [] }))

/-- A held request has waited for 1 s (R492). -/
def holdExpires (b : Block) : Block :=
  if b.sec.held.isSome && decide (b.sec.heldAt + 1000000000 ≤ b.time) then doeNext (emit (secMod b (fun s => { s with held := none })) (.doe 2 1 [])) else b

/-- An IDE_KM message programs a key set, or takes a stream down (R497, R275). -/
def ideKm (io active : Bool) (b : Block) : Block :=
  if isReady b 1 0 && !b.flt.fatal then
    let b := if active then secMod b (fun s => { s with ideGen := s.ideGen + 1 }) else b
    hostMod b (fun h => if io then { h with ideIo := active } else { h with ideCm := active })
  else b

/-- A running store command ends (R492, R493, R500, R501). -/
def storeDone (ok : Bool) (b : Block) : Block :=
  match b.sec.cmd with
  | none => b
  | some c =>
    let b := secMod b (fun s => { s with cmd := none })
    if !ok then storeFail b 2
    else
      let b := regSet b 0x320004 16 16 0
      match c.op with
      | 0 => secMod b (fun s => { s with store := putBytes s.store (bankBase c.bank) c.header })
      | 1 =>
        let k := b.sec.next / 1024
        let b := secMod b (fun s => { s with store := putBytes s.store (0x380000 + 64 * (k % 8192)) (resvRecord k), usable := true })
        match b.sec.held with
        | some n => doeNext (signReport b n)
        | none => b
      | _ => secMod b (fun s => { s with store := (List.range 128).foldl (fun m i => putBytes m (0x300000 + 4096 * i) (bytesOf 4 0)) s.store })

/-! ### Meanings -/

/-- `IDE_KM_MESSAGE` (R497). -/
def execIdeKmMessage (io active : Bool) (s : State) : Host.Outcome State Fault Refusal := onBlk (ideKm io active) s

/-- `GET_IDENTITY` (R495). -/
def execGetIdentity (s : State) : Host.Outcome State Fault Refusal := onBlk (doe .identity) s

/-- `GET_REPORT` (R494). -/
def execGetReport (nonce : BitVec 256) (s : State) : Host.Outcome State Fault Refusal := onBlk (doe (.report nonce)) s

/-- `SIGNING_HOLD_TIMEOUT` (R492). -/
def execSigningHoldTimeout (s : State) : Host.Outcome State Fault Refusal := onBlk holdExpires s

/-- `DEBUG_CHALLENGE` (R495). -/
def execDebugChallenge (s : State) : Host.Outcome State Fault Refusal := onBlk (doe .challenge) s

/-- `DEBUG_UNLOCK` (R496). -/
def execDebugUnlock (sig : List Byte) (s : State) : Host.Outcome State Fault Refusal := onBlk (doe (.unlock sig)) s

/-- `POLICY_PROGRAM` (R484). -/
def execPolicyProgram (w : Word) (blown : Bool) (s : State) : Host.Outcome State Fault Refusal := onBlk (doe (.policy w blown)) s

/-- `LIFECYCLE_ADVANCE` (R483). -/
def execLifecycleAdvance (w : Word) (blown : Bool) (s : State) : Host.Outcome State Fault Refusal :=
  onBlk (doe (.advance w blown)) s

/-- `STORE_COMMIT` (R500): a write of `STORE_CTRL`. -/
def execStoreCommit (w : Word) (s : State) : Host.Outcome State Fault Refusal := onBlk (storeCtrl w) s

/-- `STORE_RESERVE` (R492): a write of `STORE_CTRL`. -/
def execStoreReserve (w : Word) (s : State) : Host.Outcome State Fault Refusal := onBlk (storeCtrl w) s

/-- `STORE_CLEAR_LOG` (R500): a write of `STORE_CTRL`. -/
def execStoreClearLog (w : Word) (s : State) : Host.Outcome State Fault Refusal := onBlk (storeCtrl w) s

/-- `STORE_COMMAND_DONE` (R501). -/
def execStoreCommandDone (readBackOk : Bool) (s : State) : Host.Outcome State Fault Refusal := onBlk (storeDone readBackOk) s

/-- `FIRMWARE_UPDATE_GO` (R489): a write of `SEC_FWU_CTRL`. -/
def execFirmwareUpdateGo (w : Word) (bundle : List Byte) (s : State) : Host.Outcome State Fault Refusal := onBlk (fwuCtrl w bundle) s

/-- `FIRMWARE_UPDATE_DONE` (R489). -/
def execFirmwareUpdateDone (readBackOk : Bool) (s : State) : Host.Outcome State Fault Refusal := onBlk (fwuDone readBackOk) s

/-- `ARB_COMMIT` (R488): a write of `SEC_FWU_CTRL`; a bundle that its `GO` bit asks for is read from host memory. -/
def execArbCommit (w : Word) (s : State) : Host.Outcome State Fault Refusal := onBlk (arbCommit w) s
where
  arbCommit (w : Word) (b : Block) : Block :=
    fwuCtrl w ((List.range (regFld b 0x330068 0 24)).map (fun i => Config.hostByte i b.freeCtr)) b

end Sys2Proof.Machine
end

