-- ==== Sys2Proof/Machine/Mem.lean ====
section
/-! DEFINITION. Debug pokes, the CXL.mem window, retirement, zeroing and patrol of HBM, and the spill pool (R86 to R112,
R208 to R211). -/

namespace Sys2Proof.Machine

/-! ### SYNCDBG (R208 to R211) -/

/-- The counter that `SYNCDBG_PHYS` selects: team and number; none outside the grid. -/
def pokeTarget (b : Block) : Option (Nat × Nat) :=
  let col := regFld b 0x70000 9 7
  let row := regFld b 0x70000 16 6
  if col < 80 ∧ row < 59 then some (59 * col + row, regFld b 0x70000 0 9) else none

/-- The lowest virtual ID whose entry names a counter, 0 where none does (R192). -/
def vidOf (x : Pad) (team ctr : Nat) : Nat :=
  match x.sem.find? (fun e => match e.2 with
    | some s => decide (entTeam x s = team) && decide (s.ctr = ctr)
    | none => false) with
  | some e => e.1
  | none => 0

/-- A paddock becomes tampered; its turns' records carry the flag from the commit of the step in progress (R210). -/
def tamper (b : Block) (p : Nat) : Block :=
  if (padGet b p).step.isSome then padMod b p (fun x => { x with tampered := true, tamperStep := true })
  else markTampered (padMod b p (fun x => { x with tampered := true })) p

/-- The value that a poke leaves (R209). -/
def pokeValue (op v n : Nat) : Nat :=
  match op with
  | 0 => n
  | 1 => min 16777215 (v + n)
  | _ => v - n

/-- Sets `LAST_REJECTED` of SYNCDBG. -/
def pokeRejected (b : Block) (v : Bool) : Block := regSet b 0x70014 0 1 v.toNat

/-- A write to `SYNCDBG_POKE` (R209, R211). -/
def poke (w : Word) (b : Block) : Block :=
  if !actServed b then b
  else
    let op := fld w 24 2
    let n := fld w 0 24
    match pokeTarget b with
    | none => pokeRejected b true
    | some (team, c) =>
      match padOf b team with
      | none => pokeRejected b true
      | some p =>
        if fld w 26 6 ≠ 0x2D ∨ op = 3 ∨ !debugOpen b then pokeRejected b true
        else
          match ctrCheck b team c op (vidOf (padGet b p) team c) 0 n with
          | (b, false) => pokeRejected b true
          | (b, true) =>
            let v := pokeValue op (ctrGet b team c) n
            let vid := vidOf (padGet b p) team c
            let b := raise (serve (ctrPut b team c v) team c) 0x107 corrected
              (at_ 0 (vid % 2 ^ 12) ||| at_ 12 p ||| at_ 26 op ||| at_ 30 1)
              (at_ 0 c ||| at_ 9 (keyCol team) ||| at_ 16 (physRow b (keyCol team) (keyRow team))) (at_ 0 n) (at_ 0 v) .none
            pokeRejected (tamper b p) false

/-- A write to `SYNCDBG_VIRT`: its fields are stored, and `RESOLVE` translates (R208, R211). -/
def resolveVirt (w : Word) (b : Block) : Block :=
  if !writeServed b then b
  else
    let b := regStore b 0x70004 0x70004 w
    if !bit w 31 || !actServed b then b
    else
      let p := fld w 12 6
      let x := padGet b p
      match (if debugOpen b && decide (x.st ≠ .free) then translate b p (fld w 0 12) else none) with
      | none => pokeRejected b true
      | some s =>
        let k := entTeam x s
        pokeRejected (regPut b 0x70000 (at_ 0 s.ctr ||| at_ 9 (keyCol k) ||| at_ 16 (keyRow k))) false

/-! ### The CXL.mem window (R87, R97, R98, R100, R103, R470) -/

/-- Bytes of the window: 64 GiB. -/
def windowBytes : Nat := 68719476736

/-- Does an access of `n` bytes at an offset reach the window? -/
def inWindow (b : Block) (off n : Nat) : Bool := !windowOff b && decide (off + n ≤ windowBytes)

/-- The bytes that a poisoned read carries. -/
def poisonRead (b : Block) (off : Nat) : Block :=
  let c := b.freeCtr
  emit { b with freeCtr := c + 64 } (.memRead off ((List.range 64).map (fun i => Config.lostData (c + i))) true)

/-- A host read of 64 B of the window. -/
def memRead (off : Nat) (b : Block) : Block :=
  if b.flt.fatal || winRetired b (off / segBytes) then poisonRead b off
  else
    match hread b off 64 none with
    | (b, some l) => emit b (.memRead off l false)
    | (b, none) => poisonRead b off

/-- A host write: poison marks the units that it covers; a retired segment discards it. -/
def memWrite (off : Nat) (data : List Byte) (poison : Bool) (b : Block) : Block :=
  if winRetired b (off / segBytes) ∨ data = [] then b
  else
    let b := hwrite b off data
    if poison then
      let us := (List.range ((off + data.length - 1) / 32 + 1 - off / 32)).map (fun i => off / 32 + i)
      let b := hbmMod b (fun h => { h with err := us.foldl (fun m u => tput 0 m u 2) h.err })
      raise b (0x43 + 16 * stackOf off) corrected 0 0 0 0 .none
    else b

/-! ### Retirement, zeroing and patrol (R89, R90, R99, R100) -/

/-- A write to `MEM_RETIRE_ADD`. -/
def retireAdd (w : Word) (b : Block) : Block :=
  if !actServed b then b
  else
    let k := fld w 0 18
    if 188416 ≤ k then regSet b 0x80054 18 1 1 else retireSeg (regSet b 0x80054 18 1 0) k 2

/-- No pool segment waits to be zeroed: each of them holds something else. -/
def allZeroed (b : Block) : Bool :=
  decide ((b.hbm.segs.filter (fun e => isPool b e.1)).length = if windowOff b then 188416 else 155648)

/-- Background zeroing reaches a segment; the zeroing of a cold reset ends when none is left (R90, R114). -/
def zeroPool (k : Nat) (b : Block) : Block :=
  if isPool b k && decide (segGet b k = .dirty) && !b.hbm.testing.contains k && allReady b 2 8 && !b.flt.fatal then
    let b := segPut (segZero b k) k .clean
    hbmMod b (fun h => { h with zeroed := h.zeroed || allZeroed b })
  else b

/-- Does the patrol scrub read a segment: allocated, or of the window? -/
def patrolled (b : Block) (k : Nat) : Bool :=
  (match segGet b k with
    | .stage _ => true
    | .kv _ => true
    | _ => false) || (decide (k < 32768) && !windowOff b && !winRetired b k)

/-- One unit that the patrol reads with an error mark. -/
def patrolUnit (b : Block) (u : Nat) : Block :=
  match tget 0 b.hbm.err u with
  | 0 => b
  | 1 => hbmMod (hbmCe b (32 * u)) (fun h => { h with err := tput 0 h.err u 0 })
  | _ => hbmUe b (32 * u) none

/-- The patrol scrub reads a segment: corrected units are written back. -/
def patrol (k : Nat) (b : Block) : Block :=
  if patrolled b k && allReady b 2 8 && !b.flt.fatal then
    let us := (b.hbm.err.map (·.1)).filter (fun u => decide (u * 32 / segBytes = k))
    us.foldl patrolUnit b
  else b

/-! ### The spill pool (R108 to R112) -/

/-- A list entry that names a host page (R111): one whose bit 0 is clear is malformed, as one with a reserved bit is (DEDUCED, log 123). -/
def spillEntry (d : Dword) : Bool := bit d 0 && decide (fld d 1 14 = 0)

/-- The module reads the spill list: malformed entries are skipped; entries that hold a page stay in use.  A `COUNT` above
1,048,576, that the field can hold, is taken as 1,048,576 (DESIGN CHOICE, log 123). -/
def readSpillList (b : Block) (list : List Dword) : Block :=
  let l := list.take (min 1048576 (regFld b 0x80208 0 21))
  let good := (l.zipIdx.filter (fun e => spillEntry e.1 && !b.hbm.spillUsed.any (fun s => decide (s.1 = e.2)))).map
    (fun e => (e.2, e.1.toNat / 2 ^ 15 * 2 ^ 15))
  let b := hbmMod b (fun h => { h with spillFree := good })
  if l.all spillEntry then b else regSet b 0x80210 21 1 1

/-- Reads back what one spilled session can hold, oldest entry first, up to a poisoned page, which faults the session; answers the
pages left over, and whether pages are still to come (R110, R112). -/
def recallSlot (r : Block × List (Option (List Byte)) × Bool) (n : Nat) : Block × List (Option (List Byte)) × Bool :=
  let b := r.1
  let z := slotGet b n
  let sp := spilledEntries b n
  let fit := min sp.length (pagesOpen b z.paddock n)
  let l := r.2.1.take fit
  let good := (l.takeWhile (·.isSome)).length
  let k := min fit (good + 1)
  let b := (sp.take (min k l.length)).foldl (fun b e => match b.hbm.spillUsed.find? (fun s => s.1 = fld e.2 0 22) with
    | some s => emit b (.readBack s.2)
    | none => b) b
  let b := readBackPages z.paddock n (sp.take fit) l b
  let b := if spilledEntries b n = [] then slotMod b n (fun z => { z with st := if z.st = 3 then 1 else z.st }) else b
  (b, r.2.1.drop k, r.2.2 || decide (l.length < fit ∧ good = l.length))

/-- The slots of spilled sessions, ascending. -/
def spilledSlots (b : Block) : List Nat := (b.sess.slots.filter (fun e => e.2.st = 3)).map (·.1)

/-- `RECALL`: `pages` are the pages that arrive, in slot order, none for a poisoned one; where they end before the last page
asked for, the read-back is still in progress and a further `RECALL` takes it on (R110, R112, R114; DESIGN CHOICE, log 123). -/
def recallAll (pages : List (Option (List Byte))) (b : Block) : Block :=
  let r := (spilledSlots b).foldl recallSlot (b, pages, false)
  hbmMod r.1 (fun h => { h with recalling := r.2.2 })

/-- The spill list as host memory holds it, where no command supplies it. -/
def hostList (b : Block) : List Dword :=
  (List.range (min 1048576 (regFld b 0x80208 0 21))).map (fun i => BitVec.ofNat 64 (leNat ((List.range 8).map (fun k => Config.hostByte (8 * i + k) b.freeCtr))))

/-- The spilled pages as the module wrote them, in slot order. -/
def poolPages (b : Block) : List (List Byte) :=
  (spilledSlots b).flatMap (fun n => (spilledEntries b n).filterMap (fun e =>
    (b.hbm.spillUsed.find? (fun s => s.1 = fld e.2 0 22)).map (fun s => poolBytes b s.2)))

/-- A write to `MEM_SPILL_CTRL` (R111, R112, R114). -/
def spillCtrl (w : Word) (list : List Dword) (pages : List (Option (List Byte))) (b : Block) : Block :=
  if !writeServed b then b
  else
    let was := bit (regGet b 0x8020C) 0
    let b := regStore b 0x8020C 0x8020C w
    let b := if bit w 0 && !was then readSpillList b list else b
    if bit w 1 && actServed b then recallAll pages b else b

/-- Resident pages that sessions other than `n` still have to spill. -/
def spillOwed (b : Block) (n : Nat) : Nat :=
  ((b.hbm.spilling.filter (fun m => m ≠ n)).map (fun m => (residentEntries b m).length)).sum

/-- May a session's spill begin (R108)? -/
def maySpill (b : Block) (n : Nat) : Bool :=
  let z := slotGet b n
  let x := padGet b z.paddock
  let need := (residentEntries b n).length
  bit (regGet b 0x8020C) 0 && decide (x.env.features / 16 % 2 = 1) && (decide (z.st = 1) || decide (z.st = 3)) && decide (z.turns = [])
    && z.closing.isNone && b.host.pairs.all (fun e => e.2.reading.all (fun r => decide (r.slot ≠ n))) && decide (need ≠ 0)
    && decide (z.lastCloseT + 1000000 * max 10 (regFld b 0x8020C 16 16) ≤ b.time) && decide (need + spillOwed b n ≤ b.hbm.spillFree.length)

/-- Writes the first resident page of a session to the first free entry of the pool (DESIGN CHOICE, log 123); the spill ends after
the last page, or where a page cannot be read (R97, R108). -/
def spillPage (b : Block) (n : Nat) : Block :=
  let p := (slotGet b n).paddock
  match residentEntries b n, b.hbm.spillFree with
  | e :: more, s :: rest =>
    match pageAddr (padGet b p) (fld e.2 0 22) with
    | none => stopSpill b n
    | some a =>
      match hread b a 32768 none with
      | (b, none) =>
        let b := stopSpill b n
        if spilledEntries b n = [] then slotMod b n (fun z => { z with st := 1 }) else b
      | (b, some l) =>
        let b := hbmMod (emit b (.spill s.2 l)) (fun h => { h with spillFree := rest, spillUsed := h.spillUsed ++ [s] })
        let b := ptPut (pageReturn b p (fld e.2 0 22)) n e.1 (ptWord s.1 true)
        if more = [] then stopSpill b n else b
  | _, _ => stopSpill b n

/-- `SESSION_SPILL`: one page of an idle session is spilled, the first page beginning the spill; it goes no further once spilling
is no longer permitted or the session closes (R108, R110). -/
def spillSession (n : Nat) (b : Block) : Block :=
  if hostStopped b then b
  else if b.hbm.spilling.contains n then
    if bit (regGet b 0x8020C) 0 && (slotGet b n).closing.isNone && decide ((slotGet b n).st = 3) then spillPage b n else stopSpill b n
  else if maySpill b n then
    spillPage (hbmMod (slotMod b n (fun z => { z with st := 3 })) (fun h => { h with spilling := h.spilling ++ [n] })) n
  else b

/-! ### Meanings -/

/-- `SYNCDBG_POKE_SET` (R209): a write of `SYNCDBG_POKE`. -/
def execSyncdbgPokeSet (w : Word) (s : State) : Host.Outcome State Fault Refusal := onBlk (poke w) s

/-- `SYNCDBG_POKE_ADD` (R209): a write of `SYNCDBG_POKE`. -/
def execSyncdbgPokeAdd (w : Word) (s : State) : Host.Outcome State Fault Refusal := onBlk (poke w) s

/-- `SYNCDBG_POKE_SUBTRACT` (R209): a write of `SYNCDBG_POKE`. -/
def execSyncdbgPokeSubtract (w : Word) (s : State) : Host.Outcome State Fault Refusal := onBlk (poke w) s

/-- `RESOLVE` (R211): a write of `SYNCDBG_VIRT`. -/
def execResolve (w : Word) (s : State) : Host.Outcome State Fault Refusal := onBlk (resolveVirt w) s

/-- `CXL_MEM_READ` (R103): 64 B at a window offset. -/
def execCxlMemRead (off : Nat) (s : State) : Host.Outcome State Fault Refusal :=
  if inWindow s.blk off 64 then onBlk (memRead off) s else .fault .outsideWindow

/-- `CXL_MEM_WRITE` (R98, R103). -/
def execCxlMemWrite (off : Nat) (data : List Byte) (poison : Bool) (s : State) : Host.Outcome State Fault Refusal :=
  if inWindow s.blk off data.length then onBlk (memWrite off data poison) s else .fault .outsideWindow

/-- `MEM_RETIRE_ADD` (R100). -/
def execMemRetireAdd (w : Word) (s : State) : Host.Outcome State Fault Refusal := onBlk (retireAdd w) s

/-- `SPILL_ENABLE` (R111): a write of `MEM_SPILL_CTRL`; `list` is what the module reads. -/
def execSpillEnable (w : Word) (list : List Dword) (s : State) : Host.Outcome State Fault Refusal :=
  onBlk (fun b => spillCtrl w list ((poolPages b).map some) b) s

/-- `RECALL` (R112): a write of `MEM_SPILL_CTRL`. -/
def execRecall (w : Word) (pages : List (Option (List Byte))) (s : State) : Host.Outcome State Fault Refusal :=
  onBlk (fun b => spillCtrl w (hostList b) pages b) s

/-- `SESSION_SPILL` (R108). -/
def execSessionSpill (n : Fin 16384) (s : State) : Host.Outcome State Fault Refusal := onBlk (spillSession n.val) s

/-- `HBM_POOL_ZEROING` (R90). -/
def execHbmPoolZeroing (seg : Nat) (s : State) : Host.Outcome State Fault Refusal := onBlk (zeroPool seg) s

/-- `HBM_PATROL_SCRUB` (R99). -/
def execHbmPatrolScrub (seg : Nat) (s : State) : Host.Outcome State Fault Refusal := onBlk (patrol seg) s

end Sys2Proof.Machine
end

