-- ==== Sys2Proof/Machine/Pair.lean ====
section
/-! DEFINITION. The redundant pair: the halter line and the reins, heartbeats, mirroring, resync and takeover (R393 to
R415). -/

namespace Sys2Proof.Machine

/-! ### The halter line and the reins (R394 to R400) -/

/-- Is this module in plane B (R390)? -/
def inPlaneB (b : Block) : Bool := bit (regGet b 0x300000) 2

/-- Drives the reins request onto the halter line (R396). -/
def setReq (b : Block) (v : Bool) : Block :=
  if b.pair.request = v then b else emit (pairMod b (fun x => { x with request := v })) (.halter v (!v))

/-- Claims the reins: plane B only while the partner's request reads deasserted (R398). -/
def claimReins (b : Block) : Block := if inPlaneB b && b.pair.reads then b else setReq b true

/-- A function's units leave or enter ready, all at once. -/
def setUnits (b : Block) (f n : Nat) (v : Bool) : Block := (List.range n).foldl (fun b u => setReady b f u v) b

/-- The compute die and the tiers power off (R394, R415). -/
def dieOff (b : Block) : Block := setUnits (setUnits b 4 80 false) 3 4 false

/-- They power up and report ready (R411). -/
def dieOn (b : Block) : Block := setUnits (setUnits b 3 4 true) 4 80 true

/-- Every paddock and session that the module holds goes, without a completion. -/
def dropWork (b : Block) : Block :=
  let b := (loadedPads b).foldl freePad b
  let b := hbmMod b (fun h => { h with pt := [], spillFree := h.spillFree ++ h.spillUsed, spillUsed := [], spilling := [], recalling := false })
  { b with sess := { b.sess with slots := [] } }

/-- Work that an unpaired module holds when it becomes standby is handed back (R30). -/
def handBack (b : Block) : Block :=
  (loadedPads b).foldl (fun b p =>
    if (padGet b p).waiters ≠ [] ∧ (padGet b p).st = .loading then abandonLoad b p 0x0104 0 else forceOff b p) b

/-- What is to be written for the ended turns of slot `n`, the oldest first, from the entries held back for it; `a` holds the records
of the first of them. -/
def orphansOf (n ring node : Nat) : List Turn → List Entry → List (Nat × Nat × Nat) → List Orphan
  | t :: ts, .record _ seq token flags :: es, a => orphansOf n ring node (t :: ts) es (a ++ [(seq, token, flags)])
  | t :: ts, .closing _ status flags :: es, a => ⟨n, ring, node, t, a, status, flags⟩ :: orphansOf n ring node ts es []
  | ts, _ :: es, a => orphansOf n ring node ts es a
  | _, [], _ => []

/-- The entries that the pair holds back for a slot. -/
def pairEntries (b : Block) (n : Nat) : List Entry :=
  (b.pair.held.map (·.2)).filter (fun e => match e with
    | .closing m _ _ => decide (m = n)
    | .record m _ _ _ => decide (m = n)
    | _ => false)

/-- The turns that have been handed back stay, without their sessions, until all of each is written (R30, R33, log 139). -/
def keepOrphans (b : Block) : Block :=
  pairMod b (fun x => { x with orphans := x.orphans ++ b.sess.slots.flatMap (fun e =>
    orphansOf e.1 e.2.ring e.2.node e.2.turns (e.2.held ++ pairEntries b e.1) []) })

/-- The module becomes standby (R394): work that no partner carries on is handed back (log 139). -/
def becomeStandby (b : Block) : Block :=
  let b := dropWork (if b.pair.alone then keepOrphans (handBack b) else b)
  flushOrphans (dieOff (pairMod b (fun x => { x with role := 2, fresh := true, armed := false, items := [], cover := [], tags := [],
                                                      resync := false, phase := none, held := [] })))

/-- The module takes the reins: it is active, under an epoch above every one it has seen (R394, R400). -/
def takeReins (b : Block) : Block :=
  pairMod b (fun x => { x with role := 1, epoch := max x.epoch x.seen + 1, seen := max x.epoch x.seen + 1, alone := false })

/-- Everything that has not been written is discarded (R415). -/
def discardHeld (b : Block) : Block :=
  let b := pairMod b (fun x => { x with held := [], orphans := [] })
  let b := hostMod b (fun h => { h with pairs := tmapAll RPair.init h.pairs (fun _ x => { x with held := [], replay := [] }) })
  { b with sess := { b.sess with slots := tmapAll Slot.free b.sess.slots (fun _ z => { z with held := [] }) } }

/-- The module becomes deposed (R398, R415): it fences its paddocks, discards what is not written, raises `REINS_LOST` and
powers its compute die off. -/
def depose (b : Block) : Block :=
  let b := pairMod ((loadedPads b).foldl fencePad b) (fun x => { x with role := 4, armed := false, resync := false })
  dieOff (raise (setReq (discardHeld b) false) 0x3B7 contained 0 0 0 0 .pair)

/-- A takeover is refused or given up (R410). -/
def refuseTakeover (b : Block) : Block :=
  let b := if b.pair.role = 3 then dieOff b else b
  raise (pairMod b (fun x => { x with role := if x.role = 3 then 2 else x.role, phase := none })) 0x3B8 corrected 0 0 0 0 .none

/-- The gate has opened: what sessions hold back is written, as far as it can be (R33). -/
def flushAll (b : Block) : Block := flushOrphans ((b.sess.slots.map (·.1)).foldl flushSlot b)

/-- The role follows the line (R394, R398). -/
def settleRole (b : Block) : Block :=
  let b := if inPlaneB b && b.pair.reads && !b.pair.broken && decide (b.pair.role ≠ 1) then setReq b false else b
  let x := b.pair
  if !pairOn b || x.broken then b
  else
    match x.role with
    | 0 =>
      if x.request then (if x.reads then b else flushAll (releaseHeld (takeReins b) 0))
      else if x.reads ∧ x.met then becomeStandby b else b
    | 1 => if x.reads then depose b else b
    | 3 => if x.reads then refuseTakeover b else b
    | _ => b

/-- The partner's rails change (R396, R398): equal rails show no request. -/
def halterChange (p n : Bool) (b : Block) : Block :=
  let b := pairMod b (fun x => { x with railP := p, railN := n })
  if p = n ∨ b.flt.fatal then b
  else if b.pair.broken then pairMod b (fun x => { x with reads := p })
  else settleRole (pairMod b (fun x => { x with reads := p }))

/-! ### Protection (R407, R408) -/

/-- F = 30 ms, in ns (R414). -/
def failoverNs : Nat := 30000000

/-- Bounds not yet met extend by F (R253, R408). -/
def extendTurns (b : Block) : Block :=
  { b with sess := { b.sess with slots := tmapAll Slot.free b.sess.slots (fun _ z =>
      { z with turns := z.turns.map (fun t => if t.ended.isSome then t else
          { t with firstDl := if t.written = 0 then t.firstDl + failoverNs else t.firstDl, bound := t.bound + failoverNs,
                   cdl := t.cdl + failoverNs }) }) } }

/-- A protected active becomes unprotected: it writes what it held, and waits no longer (R408). -/
def unprotect (b : Block) (alarm : Bool) : Block :=
  if b.pair.role = 1 ∧ b.pair.partnerArmed ∧ !b.pair.unprotected then
    let b := extendTurns (pairMod b (fun x => { x with unprotected := true }))
    let b := releaseHeld b b.pair.sent
    if alarm then raise b 0x3B3 contained 0 0 0 0 .pair else b
  else b

/-- The standby is no longer armed: it waits for a resync (R408). -/
def disarm (b : Block) : Block := pairMod b (fun x => { x with armed := false, fresh := true, resync := false })

/-- Equal rails for 1 µs: the line is broken (R396, R399, R408). -/
def halterBreaks (b : Block) : Block :=
  if b.pair.railP = b.pair.railN ∧ !b.pair.broken ∧ pairOn b then
    let b := unprotect b false
    let b := pairMod b (fun x => { x with broken := true })
    let b := if b.pair.role = 2 then disarm b else b
    let b := if b.pair.role = 3 then refuseTakeover b else b
    raise b 0x3B2 contained 0 0 0 0 .pair
  else b

/-- The line has read whole for 10 ms (R399). -/
def halterMends (b : Block) : Block :=
  if b.pair.broken ∧ b.pair.railP ≠ b.pair.railN then settleRole (pairMod b (fun x => { x with broken := false })) else b

/-! ### Coverage (R395) -/

/-- A field of a mirrored paddock record. -/
def padField (m : MirrorItem) (i : Nat) : Nat := (Config.padFields m.data).getD i 0

/-- The committed record of a paddock number. -/
def padRec (b : Block) (p : Nat) : Option MirrorItem :=
  b.pair.items.find? (fun m => decide (m.kind = 5) && decide (m.arg.toNat = p) && decide (padField m 3 ≠ 0))

/-- The staged image a record names, where it can serve a restore. -/
def recStage (b : Block) (m : MirrorItem) : Option (Nat × Stage) :=
  match sameImage b (BitVec.ofNat 256 (padField m 5)) with
  | some n =>
    match stageGet b n with
    | some g => if g.copying then none else some (n, g)
    | none => none
  | none => none

/-- Teams of a record's rectangle. -/
def recTeams (m : MirrorItem) : List Nat := rectTeams (padField m 1) (padField m 2) (padField m 3) (padField m 4)

/-- The standby covers a paddock where it can claim what it needs. -/
def coverPad (b : Block) (p : Nat) : Block :=
  match padRec b p with
  | none => b
  | some m =>
    match recStage b m with
    | none => b
    | some (_, g) =>
      let others := b.pair.cover.flatMap (fun c => ((padRec b c.1).map recTeams).getD [])
      let need := cdiv g.env.kvReserve segBytes
      let segs := (cleanSegs b).take need
      if g.env.split || decide (segs.length < need) || decide (80 < padField m 1 + padField m 3)
          || decide (59 < padField m 2 + padField m 4)
          || (recTeams m).any (fun k => teamFailed b k || others.contains k) then b
      else
        let b := segs.foldl (fun b k => segPut b k (.kv p)) b
        pairMod b (fun x => { x with cover := x.cover ++ [(p, segs)] })

/-- The standby gives up what it claimed for a paddock. -/
def uncoverPad (b : Block) (p : Nat) : Block :=
  match b.pair.cover.find? (fun c => c.1 = p) with
  | none => b
  | some c => pairMod (c.2.foldl freeSeg b) (fun x => { x with cover := x.cover.filter (fun c => c.1 ≠ p) })

/-- Is every recorded paddock covered, but for split parts, and its image still at hand? -/
def coversAll (b : Block) : Bool :=
  b.pair.items.all (fun m => decide (m.kind ≠ 5) || decide (padField m 3 = 0)
    || (match recStage b m with
        | some (_, g) => g.env.split || b.pair.cover.any (fun c => decide (c.1 = m.arg.toNat))
        | none => false))

/-! ### The committed state of a standby (R403 to R405) -/

/-- The number at a byte offset of an item's data. -/
def itemNum (m : MirrorItem) (o n : Nat) : Nat := leAt m.data o n

/-- The pair, and the count of completions issued on it, of a `RELEASE` item of completions. -/
def relPair (m : MirrorItem) : Nat × Nat := (fld m.arg 0 10, fld m.arg 16 32)

/-- Drops the first `k` completion items of a pair. -/
def dropComps (q : Nat) : Nat → List MirrorItem → List MirrorItem
  | _, [] => []
  | 0, l => l
  | k + 1, m :: r => if m.kind = 7 ∧ m.arg.toNat = q then dropComps q k r else m :: dropComps q (k + 1) r

/-- One item of a committed batch takes the place of what it supersedes. -/
def applyItem (l : List MirrorItem) (m : MirrorItem) : List MirrorItem :=
  match m.kind with
  | 1 =>
    if itemNum m 0 1 % 8 = 0 then l.filter (fun e => decide (e.slot ≠ m.slot) || decide (4 < e.kind) && decide (e.kind ≠ 6))
    else l.filter (fun e => !(decide (e.kind = 1) && decide (e.slot = m.slot))) ++ [m]
  | 5 => l.filter (fun e => !(decide (e.kind = 5) && decide (e.arg = m.arg))) ++ [m]
  | 6 =>
    if m.slot = 0xFFFF then
      let q := (relPair m).1
      let old := match l.find? (fun e => decide (e.kind = 6) && decide (e.slot = 0xFFFF) && decide ((relPair e).1 = q)) with
        | some e => (relPair e).2
        | none => 0
      (dropComps q ((relPair m).2 - old) l).filter (fun e =>
        !(decide (e.kind = 6) && decide (e.slot = 0xFFFF) && decide ((relPair e).1 = q))) ++ [m]
    else l.filter (fun e => !(decide (e.slot = m.slot) && (decide (e.kind = 6)
        || (decide (e.kind = 2) && decide (e.arg.toNat < m.arg.toNat))))) ++ [m]
  | 7 => l ++ [m]
  | _ => l.filter (fun e => !(decide (e.kind = m.kind) && decide (e.slot = m.slot) && decide (e.arg = m.arg))) ++ [m]

/-- Is a completion item an `ACCEPTED`? -/
def isAccepted (m : MirrorItem) : Bool := decide (m.kind = 7) && decide (itemNum m 4 2 = 1) && decide (itemNum m 6 1 = 3)

/-- A `PADDOCK` item's claims follow it. -/
def coverItem (b : Block) (m : MirrorItem) : Block :=
  if m.kind = 5 then coverPad (uncoverPad b m.arg.toNat) m.arg.toNat else b

/-- Sends a packet of the response channel on the pair port. -/
def sendPairRsp (b : Block) (p : Nat) (m : FabMsg) : Block := sendVc b p true (nbrHdr b) m

/-- Sends a `PAIR_CTL` code (R402). -/
def sendPairCtl (b : Block) (code : Nat) : Block :=
  match pairPort b with
  | some p => sendOn b p (nbrHdr b) (.pairCtl (BitVec.ofNat 32 code))
  | none => b

/-- Does a batch check (R405)? -/
def batchOk (b : Block) (items : List MirrorItem) (c : CommitRec) : Bool :=
  let bytes := items.flatMap itemBytes
  (b.pair.fresh || decide (c.mepoch.toNat = b.pair.acked + 1)) && decide (items.length = c.items)
    && decide (bytes.length = c.bytes) && decide (crc32c bytes = c.crc)

/-- The first batch of a resync takes the place of all that the standby held before (R406, log 140). -/
def renewItems (b : Block) : Block :=
  if b.pair.fresh then
    pairMod ((b.pair.cover.map Prod.fst).foldl uncoverPad b) (fun x => { x with items := [], tags := [] })
  else b

/-- The highest reins epoch in the records of a batch (R400). -/
def itemEpoch (items : List MirrorItem) : Nat := ((items.filter (fun m => m.kind = 2)).map (fun m => itemNum m 0x18 4)).foldl max 0

/-- The batch becomes part of the committed state, and is acknowledged (R405, R408). -/
def commitBatch (b : Block) (p : Nat) (items : List MirrorItem) (c : CommitRec) : Block :=
  let b := renewItems b
  let b := pairMod b (fun x => { x with
    items := items.foldl applyItem x.items, seen := max x.seen (itemEpoch items),
    tags := x.tags ++ (items.filter isAccepted).map (fun m => (itemNum m 12 2 % 16384, itemNum m 0 4, m.arg.toNat)),
    acked := c.mepoch.toNat, delta := (b.time : Int) - c.actTime.toNat, fresh := false, resync := !x.armed })
  let b := items.foldl coverItem b
  let b := if c.resyncEnd then
      (if coversAll b then pairMod b (fun x => { x with armed := !x.broken, resync := false }) else disarm (sendPairCtl b 2))
    else if b.pair.armed && !coversAll b then disarm b else b
  sendPairRsp b p (.mirrorAck c.mepoch)

/-- A batch arrives at the standby (R405, R407, R415): a deposed module becomes standby with it. -/
def mirrorIn (items : List MirrorItem) (c : CommitRec) (b : Block) : Block :=
  match pairPort b with
  | none => b
  | some p =>
    let b := popPkt b p 10
    if b.flt.fatal then b
    else
      let b := if b.pair.role = 4 then becomeStandby b else b
      if b.pair.role ≠ 2 then b
      else
        let b := if b.pair.fresh || c.resyncEnd then pairMod b (fun x =>
            let f := bit (regGet b 0x310000) 2
            { x with fast := f, mismatch := decide (f ≠ x.partnerFast) }) else b
        if b.pair.mismatch then disarm (sendPairCtl b 3)
        else if batchOk b items c then commitBatch b p items c
        else sendPairCtl (raise (disarm b) 0x3B4 corrected 0 0 0 0 .none) 1

/-! ### Resync (R406) -/

/-- The spilled pages of a session, read back to be sent. -/
def spilledItems (b : Block) (n : Nat) : List MirrorItem :=
  (spilledEntries b n).filterMap (fun e =>
    (b.hbm.spillUsed.find? (fun s => s.1 = fld e.2 0 22)).map (fun s => ⟨3, n, BitVec.ofNat 64 e.1, poolBytes b s.2⟩))

/-- The prompts of a slot's open turns. -/
def promptItems (b : Block) (n : Nat) : List MirrorItem :=
  let z := slotGet b n
  (z.turns.zipIdx.filter (fun t => t.1.ended = none)).map (fun t =>
    ⟨4, n, BitVec.ofNat 64 ((z.oldest + t.2) % 4), t.1.prompt.flatMap (fun w => bytesOf 4 w.toNat)⟩)

/-- The records of a slot's turns that no `RELEASE` covers, as the token log has them (R406, R417). -/
def openRecords (b : Block) (n : Nat) : List MirrorItem :=
  let z := slotGet b n
  (z.log.filter (fun e => decide (z.issued ≤ e.1))).flatMap (fun e =>
    ((z.turns.filter (fun t => decide (t.tag = e.2.2.2))).take 1).map (turnRecord b n e.1 e.2.1 e.2.2.1))

/-- The whole state, as a resync sends it. -/
def resyncItems (b : Block) : List MirrorItem :=
  (loadedPads b).map (padItem b)
    ++ (b.sess.slots.map (·.1)).flatMap (fun n => slotItem b n :: promptItems b n ++ kvItems (slotMod b n (fun z => { z with kvSent := 0 })) n
        ++ spilledItems b n ++ openRecords b n ++ releaseItem b n)
    ++ pairReleases b

/-- The active starts a resync: a changed mode applies from here (R406 to R408). -/
def startResync (b : Block) : Block :=
  if b.pair.role ≠ 1 ∨ (pairPort b).isNone then b
  else
    let f := bit (regGet b 0x310000) 2
    let b := if f then releaseHeld b b.pair.sent else b
    let b := pairMod b (fun x => { x with fast := f, mismatch := x.met && decide (f ≠ x.partnerFast) })
    let b := (b.sess.slots.flatMap (fun e => spilledEntries b e.1)).foldl (fun b e =>
      match b.hbm.spillUsed.find? (fun s => s.1 = fld e.2 0 22) with
      | some s => emit b (.readBack s.2)
      | none => b) b
    let b := sendBatch b (resyncItems b) true
    pairMod b (fun x => { x with resync := true, resyncEnd := x.sent })

/-- The active receives the acknowledgement of a batch (R407, R408). -/
def mirrorAckIn (e : Nat) (b : Block) : Block :=
  match pairPort b with
  | none => b
  | some p =>
    let b := popPkt b p 11
    if b.pair.role ≠ 1 ∨ e ≤ b.pair.acked ∨ b.pair.sent < e ∨ b.flt.fatal then b
    else
      let ends := b.pair.resync && decide (b.pair.resyncEnd ≤ e)
      let b := pairMod b (fun x => { x with acked := e, resync := x.resync && !ends, unprotected := x.unprotected && !ends,
                                            ackAt := b.time })
      releaseHeld b e

/-- T_HB in ns (R409, R419). -/
def tHb (b : Block) : Nat :=
  let t := max 20 (min (regFld b 0x310004 0 14) 10000)
  1000 * (if b.pair.fast then t else min t 1000)

/-- 2 × T_HB without an acknowledgement, while the heartbeat wire beats (R408). -/
def ackTimeout (b : Block) : Block :=
  if b.pair.role = 1 ∧ b.pair.acked < b.pair.sent ∧ b.pair.wireOk ∧ !b.flt.fatal ∧ b.pair.ackAt + 2 * tHb b ≤ b.time then unprotect b true else b

/-- A `PAIR_CTL` message arrives (R402, R405 to R407). -/
def pairCtlIn (code : Word) (b : Block) : Block :=
  match pairPort b with
  | none => b
  | some p =>
    let b := popPkt b p 13
    if b.pair.role ≠ 1 ∨ b.flt.fatal then b
    else if code = 1 then startResync b
    else if code = 2 ∨ code = 3 then pairMod b (fun x => { x with resync := false })
    else b

/-- A write to `PAIR_CMD` (R419). -/
def pairCmd (w : Word) (b : Block) : Block :=
  if actServed b && bit w 0 && decide (fld w 24 8 = 0x50) then startResync b else b

/-! ### Heartbeats (R401, R402, R407) -/

/-- The 5 µs heartbeat timer: both paths beat; a standby that can no longer cover a paddock disarms (R401, R408). -/
def beatTimer (b : Block) : Block :=
  if pairOn b && b.pair.beating then
    let b := if b.pair.role = 2 ∧ b.pair.armed ∧ !coversAll b then disarm b else b
    let b := emit (pairMod b (fun x => { x with beats := x.beats + 1 })) .heartbeatWire
    match pairPort b with
    | some p =>
      if (fpGet b p).st = 3 then
        sendOn b p (nbrHdr b) (.heartbeat b.pair.role b.pair.fast b.pair.armed (BitVec.ofNat 32 b.pair.epoch))
      else b
    | none => b
  else b

/-- Pair start (R394): the preferring module claims at the partner's first heartbeat packet; where nothing has claimed by
the second, plane A claims. -/
def pairStart (b : Block) (second : Bool) : Block :=
  if b.pair.role = 0 ∧ !b.pair.request ∧ !b.pair.broken then
    let b := if bit (regGet b 0x310000) 1 && !b.pair.reads then claimReins b
      else if second && !inPlaneB b && !b.pair.reads then claimReins b else b
    settleRole b
  else b

/-- What a heartbeat packet shows (R400, R407, R408). -/
def beatPacket (role : Nat) (fast armed : Bool) (epoch : Nat) (b : Block) : Block :=
  let old := b.pair
  let differ := decide (fast ≠ old.fast)
  let b := if old.partnerArmed && !armed || differ then unprotect b true else b
  let b := pairMod b (fun x => { x with
    linkOk := true, met := true, linkBeat := b.time, partnerRole := role, partnerFast := fast, partnerArmed := armed,
    seen := max x.seen epoch, mismatch := differ })
  let b := if differ && !old.mismatch then raise b 0x3B9 corrected 0 0 0 0 .none else b
  let b := if differ && decide (b.pair.role = 2) then disarm b else b
  let b := pairStart b old.met
  let back := !old.linkOk || decide (old.partnerRole ≠ role)
  if back && decide (b.pair.role = 1) && (decide (role = 2) || decide (role = 4)) && !b.pair.resync then startResync b else b

/-- A heartbeat arrives on one of the paths (R401). -/
def beatIn (h : Beat) (b : Block) : Block :=
  if !pairOn b || b.flt.fatal then b
  else
    match h with
    | .wire => pairMod b (fun x => { x with wireOk := true, wireBeat := b.time })
    | .packet _ role fast armed epoch =>
      match pairPort b with
      | some p =>
        let b := popPkt b p 12
        if (fpGet b p).st = 3 then beatPacket role fast armed epoch.toNat b else b
      | none => b

/-- The standby declares the partner failed: it takes over, or refuses (R410, R411). -/
def declareFailed (b : Block) : Block :=
  let x := b.pair
  if x.role ≠ 2 then b
  else if !x.reads && !x.broken && !x.mismatch && (x.fast || x.armed) then
    pairMod b (fun x => { x with role := 3, phase := some 2, declared := b.time })
  else refuseTakeover b

/-- Heartbeat paths have been silent for T_HB, as far as no heartbeat has arrived on them for that time (R401, R408). -/
def beatSilence (wire link : Bool) (b : Block) : Block :=
  let x := b.pair
  if !pairOn b || !x.met || b.flt.fatal then b
  else
    let w := x.wireOk && !(wire && decide (x.wireBeat + tHb b ≤ b.time))
    let l := x.linkOk && !(link && decide (x.linkBeat + tHb b ≤ b.time))
    let b := pairMod b (fun x => { x with wireOk := w, linkOk := l })
    if !w && !l then
      if !x.wireOk && !x.linkOk then b
      else
        let b := raise (regSet b 0x310008 9 1 1) 0x3B0 corrected 0 0 0 0 .none
        declareFailed (unprotect b true)
    else if (x.wireOk && !w) || (x.linkOk && !l) then
      let b := if !l && decide (b.pair.role = 2) then disarm b else b
      raise b 0x3B1 corrected 0 0 0 0 .none
    else b

/-- A write to `PAIR_CTRL` (R419, R484): `ENABLE` is locked at 0 while the `PAIR_EN` fuse is unblown.  DESIGN CHOICE: what a write of 0
does to a module in a pair is not stated; all that it holds for its partner is written out at once, and it is unpaired (log 141). -/
def pairCtrl (w : Word) (b : Block) : Block :=
  if !writeServed b then b
  else
    let was := pairOn b
    let w := if bit (regGet b 0x330004) 2 then w else setBit w 0 false
    let b := regStore b 0x310000 0x310000 w
    if pairOn b = was then b
    else if was then
      let b := flushAll (releaseHeld (setReq b false) b.pair.sent)
      let b := setReady b 7 0 false
      pairMod b (fun x => { PairS.init with railP := x.railP, railN := x.railN, reads := x.reads, epoch := x.epoch, seen := x.seen,
                                            broken := x.broken, orphans := x.orphans })
    else pairMod b (fun x => { x with beating := true, fast := bit (regGet b 0x310000) 2 })

/-! ### Takeover (R411 to R414) -/

/-- A device time of the partner in this module's device time (R414). -/
def ownTime (b : Block) (t : Nat) : Nat := ((t : Int) + b.pair.delta).toNat

/-- Phase 3: a covered paddock is loaded from its staged image, with its tampered mark. -/
def fillCover (b : Block) (c : Nat × List Nat) : Block :=
  match padRec b c.1 with
  | none => b
  | some m =>
    match recStage b m with
    | none => c.2.foldl freeSeg b
    | some (n, g) =>
      match readStage b n with
      | (b, none) => c.2.foldl freeSeg b
      | (b, some r) =>
        let gait := padField m 6
        let x := { Pad.init with st := .loading, col := padField m 1, row := padField m 2, stage := n, env := g.env, hash := g.hash,
                                 gait := gait, run := gait, target := gait, kv := c.2, tampered := decide (padField m 7 ≠ 0) }
        rampDomains (padState (fillPad (padPut b c.1 x) c.1 r) c.1 .ready)

/-- A turn as a mirrored slot and the journal give it. -/
def mirrorTurn (b : Block) (n i k : Nat) (l : List Byte) : Turn :=
  let e := (byteAt l 7).toNat % 4
  let o := 0x80 + 0x20 * ((e + i) % 4)
  let v := leAt l (o + 0x10) 4
  let ts := b.pair.tags.filter (fun t => t.1 = n)
  let tp := match (if k ≤ ts.length + i then ts[ts.length + i - k]? else none) with
    | some t => t.2
    | none => Config.journalTurn l i
  let p := leAt l (o + 0x18) 4
  let g := leAt l (o + 0x1C) 4
  let prompt := match b.pair.items.find? (fun m => decide (m.kind = 4) && decide (m.slot = n)
      && decide (m.arg.toNat % 4 = (e + i) % 4)) with
    | some m => (List.range (p % 65536)).map (fun j => BitVec.ofNat 32 (leAt m.data (4 * j) 4))
    | none => List.replicate (p % 65536) 0
  let written := g / 65536
  let met := decide (written ≠ 0)
  let d1 := ownTime b (leAt l (o + 8) 8) + (if met then 0 else failoverNs)
  let iv := 1000 * (v % 2 ^ 17)
  { acceptT := ownTime b (leAt l o 8), firstDl := d1, interval := v % 2 ^ 17, running := decide (v / 2 ^ 18 % 2 = 1),
    suspended := decide (v / 2 ^ 19 % 2 = 1), tampered := decide (v / 2 ^ 20 % 2 = 1), tries := 0,
    blocks := (takeBlocks b (cdiv (p % 65536) 1024)).getD [], prompt := prompt, done := p / 65536, begun := decide (p / 65536 ≠ 0),
    gen := g % 65536, written := written, lastSeq := if met ∧ i = 0 then some (leAt l 0x10 8 - 1) else none, tag := tp.1,
    pair := tp.2 % 1024, noIrq := false, cdl := d1 + (if met then failoverNs else 0) + (g % 65536 - 1) * iv,
    bound := if met then lastTime + iv + failoverNs else d1, replay := true, ended := none }
where
  lastTime : Nat :=
    (((b.pair.items.filter (fun m => decide (m.kind = 2) && decide (m.slot = n))).map (fun m => ownTime b (itemNum m 0x10 8))).foldl max 0)

/-- A slot as its mirrored bytes give it. -/
def mirrorSlot (b : Block) (n : Nat) (l : List Byte) : Slot :=
  let k := (byteAt l 7).toNat / 4
  let last := leAt l 0x1C 4
  let rel := b.pair.items.find? (fun m => decide (m.kind = 6) && decide (m.slot = n))
  { Slot.free with
    st := (byteAt l 0).toNat % 8, paddock := (byteAt l 1).toNat % 64, draft := (byteAt l 2).toNat % 64,
    spec := decide (128 ≤ (byteAt l 2).toNat), pace := (byteAt l 3).toNat % 16, ring := leAt l 4 2 % 1024,
    levels := (byteAt l 6).toNat, oldest := (byteAt l 7).toNat % 4, turns := (List.range k).map (fun i => mirrorTurn b n i k l),
    nextSeq := leAt l 0x10 8, position := leAt l 0x18 4, lastToken := last % 2 ^ 18, pending := decide (2 ^ 31 ≤ last),
    seed := BitVec.ofNat 64 (leAt l 0x20 8), temperature := BitVec.ofNat 32 (leAt l 0x28 4), topP := BitVec.ofNat 32 (leAt l 0x2C 4),
    topK := leAt l 0x30 2,
    stops := (List.range 4).map (fun i => (leAt l (0x34 + 4 * i) 4 % 2 ^ 18, decide (2 ^ 31 ≤ leAt l (0x34 + 4 * i) 4))),
    widths := (List.range 16).map (fun i => (byteAt l (0x44 + i)).toNat), openedT := ownTime b (leAt l 0x60 8),
    lastCloseT := ownTime b (leAt l 0x68 8), lastStatus := leAt l 0x70 2,
    node := ((b.pair.items.find? (fun m => decide (m.kind = 2) && decide (m.slot = n))).map (fun m => itemNum m 8 4 / 2 ^ 18 % 4096)).getD
      ((fpGet b ((pairPort b).getD 0)).node),
    issued := (rel.map (fun m => m.arg.toNat + 1)).getD 0,
    log := (b.pair.items.filter (fun m => decide (m.kind = 2) && decide (m.slot = n))).map (fun m =>
      (m.arg.toNat, itemNum m 8 4 % 2 ^ 18, itemNum m 0xC 4 % 4, itemNum m 0x1C 4)) }

/-- Restores the mirrored sessions of the module that is lost. -/
def mirrorSlots (b : Block) : Block :=
  (b.pair.items.filter (fun m => m.kind = 1)).foldl (fun b m => slotPut b m.slot (mirrorSlot b m.slot m.data)) b

/-- Phase 4: a session's pages, as mirrored, and rebuilt where they were not. -/
def rebuildKv (b : Block) (n : Nat) : Block :=
  let z := slotGet b n
  let x := padGet b z.paddock
  let k := pagesFor x (worstPos z 0)
  let full := pagesFor x z.position
  let b := pagesTake b z.paddock n k
  (ptEntries b n).foldl (fun b e =>
    if full ≤ e.1 then b
    else
      match b.pair.items.find? (fun m => decide (m.kind = 3) && decide (m.slot = n) && decide (m.arg.toNat = e.1)) with
      | some m => pageWrite b z.paddock (fld e.2 0 22) m.data
      | none =>
        let c := b.freeCtr
        pageWrite { b with freeCtr := c + 1 } z.paddock (fld e.2 0 22) (Config.rebuiltKv n e.1 c)) b

/-- The completion items that close a turn of slot `n`. -/
def closingOf (b : Block) (n : Nat) : List MirrorItem :=
  b.pair.items.filter (fun m => decide (m.kind = 7) && decide (itemNum m 6 1 = 3) && decide (itemNum m 12 2 % 16384 = n)
    && (decide (itemNum m 4 2 = 0) || decide (0x0401 ≤ itemNum m 4 2)))

/-- A turn that had ended: what its closing completion says. -/
def endedTurn (b : Block) (m : MirrorItem) : Turn :=
  let s := itemNum m 0x10 6
  { acceptT := b.time - itemNum m 0x18 6, firstDl := b.time, interval := 0, running := true, suspended := decide (itemNum m 7 1 / 2 % 2 = 1),
    tampered := decide (itemNum m 7 1 / 4 % 2 = 1), tries := 0, blocks := [], prompt := [], done := 0, begun := true,
    gen := itemNum m 0x16 2, written := itemNum m 0x16 2, lastSeq := if s = noSeq then none else some s, tag := itemNum m 0 4,
    pair := m.arg.toNat % 1024, noIrq := false, cdl := b.time, bound := b.time, replay := false, ended := some (itemNum m 4 2) }

/-- The records of a slot above its last `RELEASE`, in sequence order: sequence, token, flags, tag. -/
def pendingRecords (b : Block) (n : Nat) : List (Nat × Nat × Nat × Nat) :=
  let z := slotGet b n
  let l := (b.pair.items.filter (fun m => decide (m.kind = 2) && decide (m.slot = n) && decide (z.issued ≤ m.arg.toNat))).map
    (fun m => (m.arg.toNat, itemNum m 8 4 % 2 ^ 18, itemNum m 0xC 4 % 4, itemNum m 0x1C 4))
  l.foldr (fun e a => sorted e a) []
where
  sorted (e : Nat × Nat × Nat × Nat) : List (Nat × Nat × Nat × Nat) → List (Nat × Nat × Nat × Nat)
    | [] => [e]
    | x :: r => if e.1 ≤ x.1 then e :: x :: r else x :: sorted e r

/-- Phase 5 for one session: what had not been issued is written, in the order of R31 (R412). -/
def writeSlot (b : Block) (n : Nat) : Block :=
  let z := slotGet b n
  let ended := closingOf b n
  let recs := pendingRecords b n
  let bound := z.turns.head?.map (·.bound)
  let ts := ended.map (endedTurn b)
  let b := slotPut b n { z with turns := ts ++ z.turns, oldest := (z.oldest + 4 * ts.length - ts.length) % 4 }
  let es := ts.flatMap (fun t => (recs.filter (fun r => r.2.2.2 = t.tag)).map (fun r => Entry.record n r.1 r.2.1 r.2.2.1)
    ++ [.closing n (t.ended.getD 0) 16])
  let b := es.foldl place b
  let rest := recs.filter (fun r => !ts.any (fun t => decide (t.tag = r.2.2.2)))
  let b := rest.foldl (fun b r => place b (.record n r.1 r.2.1 r.2.2.1)) b
  slotMod b n (fun z => { z with turns := match z.turns, bound with
    | t :: r, some d => if t.ended = none then { t with bound := d } :: r else z.turns
    | l, _ => l })

/-- The `ACCEPTED` of the open turns, and the other mirrored completions that no `RELEASE` covers, on their pairs; that of a turn that
had ended is written before its records (R31, R412). -/
def writeComps (b : Block) : Block :=
  let open_ := b.pair.items.filterMap (fun m => if m.kind = 1 then some m.slot else none)
  let closes := open_.flatMap (closingOf b)
  let again := open_.flatMap (fun n => ((slotGet b n).turns.filter (fun t => t.replay)).map (fun t => (n, t.tag)))
  let b := open_.foldl (fun b n => (slotGet b n).turns.foldl (fun b t =>
    if ringLive b t.pair && t.replay then rpMod b t.pair (fun x => { x with replay := x.replay ++ [.replayed n t.tag] }) else b) b) b
  let b := (b.pair.items.filter (fun m => decide (m.kind = 7) && !(isAccepted m && again.contains (itemNum m 12 2 % 16384, itemNum m 0 4)) && !closes.contains m)).foldl (fun b m =>
    putComp b (m.arg.toNat % 1024) (itemNum m 0 4) (itemNum m 4 2) (itemNum m 6 1) (itemNum m 7 1 % 128 ||| 16)
      (itemNum m 12 2) (itemNum m 16 16) false 0 false) b
  (b.host.pairs.map (·.1)).foldl flushPair b

/-- In fast mode every session of the committed state is faulted, without a last sequence (R410). -/
def faultAll (b : Block) : Block :=
  (b.sess.slots.map (·.1)).foldl (fun b n =>
    faultSession (slotMod b n (fun z => { z with turns := z.turns.map (fun t => if t.ended.isSome then t else { t with lastSeq := none }) })) n) b

/-- Phase 5: the reins are taken, what is due is written, and the takeover is logged (R400, R411, R412). -/
def finishTakeover (b : Block) : Block :=
  let us := (inUnits (b.time - b.pair.declared : Nat) 1000).toNat
  let late := decide (max b.pair.wireBeat b.pair.linkBeat + failoverNs < b.time)
  let fast := b.pair.fast
  let b := takeReins (setReq (if fast then mirrorSlots b else b) true)
  let b := pairMod b (fun x => { x with phase := none, unprotected := true, partnerArmed := false, armed := false, sent := x.acked })
  let b := flushOrphans (writeComps b)
  let b := (b.pair.items.filterMap (fun m => if m.kind = 1 then some m.slot else none)).foldl writeSlot b
  let b := if fast then faultAll b else b
  let b := pairMod b (fun x => { x with items := [], tags := [], cover := [] })
  let b := regCount (regSet b 0x310020 0 20 (min us (2 ^ 20 - 1))) 0x310020 20 12 1
  let b := if late then raise b 0x3B6 corrected 0 0 0 0 .none else b
  raise b 0x3B5 corrected (BitVec.ofNat 32 us) 0 0 0 .none

/-- A phase of a takeover ends. -/
def phaseDone (k : Nat) (b : Block) : Block :=
  if b.pair.role ≠ 3 ∨ b.pair.phase ≠ some k ∨ b.flt.fatal then b
  else
    match k with
    | 2 => pairMod (dieOn b) (fun x => { x with phase := some 3 })
    | 3 =>
      let b := b.pair.cover.foldl fillCover b
      pairMod b (fun x => { x with phase := some (if x.fast then 5 else 4) })
    | 4 =>
      let b := mirrorSlots b
      let b := (b.sess.slots.map (·.1)).foldl rebuildKv b
      pairMod b (fun x => { x with phase := some 5 })
    | _ => if b.pair.reads ∨ b.pair.broken then refuseTakeover b else finishTakeover b

/-! ### Resets -/

/-- What a warm reset, and the fatal state, do to the pair function: the heartbeats stop and the reins are dropped; the
reins epoch is kept (R398, R400, R423, R470). -/
def pairStops (b : Block) : Block :=
  let b := setReq b false
  pairMod b (fun x => { PairS.init with railP := x.railP, railN := x.railN, reads := x.reads, broken := x.broken, epoch := x.epoch,
                                        seen := x.seen, fast := x.fast, alone := x.alone, orphans := x.orphans })

/-! ### Meanings -/

/-- `HALTER_LINE_CHANGE` (R398). -/
def execHalterLineChange (railP railN : Bool) (s : State) : Host.Outcome State Fault Refusal := onBlk (halterChange railP railN) s

/-- `HALTER_BROKEN` (R399). -/
def execHalterBroken (s : State) : Host.Outcome State Fault Refusal := onBlk halterBreaks s

/-- `HALTER_WHOLE` (R399). -/
def execHalterWhole (s : State) : Host.Outcome State Fault Refusal := onBlk halterMends s

/-- `HEARTBEAT_TIMER` (R401). -/
def execHeartbeatTimer (s : State) : Host.Outcome State Fault Refusal := onBlk beatTimer s

/-- `HEARTBEAT` (R407). -/
def execHeartbeat (h : Beat) (s : State) : Host.Outcome State Fault Refusal := onBlk (beatIn h) s

/-- `HEARTBEAT_SILENCE` (R401). -/
def execHeartbeatSilence (wire link : Bool) (s : State) : Host.Outcome State Fault Refusal := onBlk (beatSilence wire link) s

/-- `MIRROR` (R405). -/
def execMirror (items : List MirrorItem) (commit : CommitRec) (s : State) : Host.Outcome State Fault Refusal :=
  onBlk (mirrorIn items commit) s

/-- `MIRROR_ACK` (R407). -/
def execMirrorAck (epoch : Dword) (s : State) : Host.Outcome State Fault Refusal := onBlk (mirrorAckIn epoch.toNat) s

/-- `MIRROR_ACK_TIMEOUT` (R408). -/
def execMirrorAckTimeout (s : State) : Host.Outcome State Fault Refusal := onBlk ackTimeout s

/-- `PAIR_CTL` (R402). -/
def execPairCtl (code : Word) (s : State) : Host.Outcome State Fault Refusal := onBlk (pairCtlIn code) s

/-- `RESYNC` (R406): a write of `PAIR_CMD`. -/
def execResync (w : Word) (s : State) : Host.Outcome State Fault Refusal := onBlk (pairCmd w) s

/-- `TAKEOVER_PHASE_DONE` (R411). -/
def execTakeoverPhaseDone (phase : Fin 6) (s : State) : Host.Outcome State Fault Refusal := onBlk (phaseDone phase.val) s

end Sys2Proof.Machine
end

