-- ==== Sys2Proof/Machine/Power.lean ====
section
/-! DEFINITION. Supply, temperature, emergencies and the governor's period (R431, R435 to R451). -/

namespace Sys2Proof.Machine

/-- ROOT runs: locked, or in holdover (R430). -/
def rootRuns (b : Block) : Bool := b.pwr.powered && (b.pwr.locked || b.pwr.holdover)

/-- ROOT runs and no reset is in progress: the monitors and the governor run (R422, R429). -/
def clocked (b : Block) : Bool := rootRuns b && !b.pwr.held

/-- The level of `ALERT#` follows the fatal state and the emergency causes (R515). -/
def alertPin (b : Block) : Block :=
  let low := b.flt.fatal || !b.pwr.causes.isEmpty
  if low = b.mgmt.low then b else emit { b with mgmt := { b.mgmt with low := low } } (.alert low)

/-! ### Emergencies (R449, R450) -/

/-- The fault source of a cause (R456). -/
def causeSource (c : Nat) : Nat :=
  match c with
  | 1 => 0x021 | 2 => 0x023 | 3 => 0x018 | 4 => 0x019 | _ => 0x01A

/-- `PWR_LIMIT` as it acts (R454). -/
def powerLimit (b : Block) : Nat := min (regFld b 0x40308 0 16) 33000

/-- `PWR_W`: the average of the samples of the last 1 ms (R452, R454). -/
def powerW (b : Block) : Nat := (inUnits b.pwr.samples.sum b.pwr.samples.length).toNat

/-- Is the average input power above the limit?  The average is taken exactly. -/
def powerAbove (b : Block) : Bool := decide (powerLimit b * b.pwr.samples.length < b.pwr.samples.sum)

/-- Sensor `m`. -/
def sensorGet (b : Block) (m : Nat) : Sensor := tget Sensor.init b.pwr.sensors m

/-- Replaces a sensor. -/
def sensorPut (b : Block) (m : Nat) (x : Sensor) : Block :=
  pwrMod b (fun w => { w with sensors := tput Sensor.init w.sensors m x })

/-- What a sensor reads, in 0.125 °C: 125 °C while it is broken (R446). -/
def Sensor.reads (x : Sensor) : Int := if x.broken then 1000 else x.temp

/-- The measured value of a cause (R450). -/
def causeValue (b : Block) (c : Cause) : Nat :=
  match c.code with
  | 1 => (BitVec.ofInt 32 (sensorGet b c.sensor).reads).toNat
  | 2 => (BitVec.ofInt 32 (sensorGet b c.sensor).reads).toNat
  | 5 => powerW b
  | _ => b.pwr.vin

/-- `EDETAIL` of an emergency event (R450). -/
def causeDetail (b : Block) (c : Cause) : Nat :=
  c.sensor + 2 ^ 16 * (c.strips.map (fun d => 2 ^ d)).sum + 2 ^ 32 * (causeValue b c % 2 ^ 32)

/-- The paddocks that a cause holds. -/
def causePads (b : Block) (c : Cause) : List Nat := (loadedPads b).filter (fun p => causeOn (padGet b p) c)

/-- The strips that a cause lowers: those of the paddocks that it takes to walk. -/
def loweredStrips (b : Block) (c : Cause) : List Nat :=
  (List.range 16).filter (fun d => (causePads b c).any (fun p =>
    let x := padGet b p
    (decide (0 < x.run) || x.next.isSome) && x.strips.contains d))

/-- Is a cause to be announced: cause 2 only where it forces a paddock below its committed gait (R450)? -/
def causeSpeaks (b : Block) (c : Cause) : Bool :=
  decide (c.code ≠ 2) || (causePads b c).any (fun p => decide (0 < (padGet b p).gait))

/-- Announces a cause, and suspends the promise of every turn in flight (R253, R450). -/
def announceCause (b : Block) (c : Cause) : Block :=
  let l := loweredStrips b c
  let d : Cause := { c with strips := l, announced := true }
  let b := pwrMod b (fun w => { w with causes := w.causes.map (fun e => if e = c then d else e) })
  suspendAll (event b 3 0 c.code (causeDetail b d))

/-- Announces the causes that are to be announced and have not been. -/
def announceCauses (b : Block) : Block :=
  b.pwr.causes.foldl (fun b c => if !c.announced && causeSpeaks b c then announceCause b c else b) b

/-- A cause enters: it is logged and announced, and its paddocks go down to walk (R442, R449). -/
def enterCause (b : Block) (code m : Nat) : Block :=
  let b := raise b (causeSource code) corrected 0 0 0 0 .none
  let b := pwrMod b (fun w => { w with causes := w.causes ++ [⟨code, m, [], false⟩] })
  alertPin (protect (announceCauses b))

/-- The causes that a test selects end (R450). -/
def endCauses (b : Block) (f : Cause → Bool) : Block :=
  let l := b.pwr.causes.filter f
  let b := l.foldl (fun b c => if c.announced then event b 4 0 c.code (causeDetail b c) else b)
    (pwrMod b (fun w => { w with causes := w.causes.filter (fun c => !f c) }))
  alertPin b

/-- Is a cause code in force? -/
def causeIn (b : Block) (code : Nat) : Bool := b.pwr.causes.any (fun c => decide (c.code = code))

/-! ### Temperature (R443 to R448) -/

/-- A valid sensor: sampled, neither broken nor masked. -/
def Sensor.valid (x : Sensor) : Bool := decide (x.still ≠ 0) && !x.broken && !x.masked

/-- The sensors that share the region of sensor `m`. -/
def regionSensors (m : Nat) : List Nat := (List.range 512).filter (fun k => decide (sensorStrips k = sensorStrips m))

/-- The sensors of an engine. -/
def engSensors (n : Nat) : List Nat := (List.range 6).map (fun i => 512 + 6 * n + i)

/-- Has a condition held since `t` (a device time + 1, 0 where it does not hold) for `d` ns? -/
def heldFor (b : Block) (t d : Nat) : Bool := decide (t ≠ 0) && decide (t + d ≤ b.time + 1)

/-- The time since when a condition has held. -/
def since (b : Block) (t : Nat) (c : Bool) : Nat := if c then (if t = 0 then b.time + 1 else t) else 0

/-- The sample is out of range, its rails disagree, or its code is stuck (R446). -/
def badSample (x : Sensor) (code : Int) (railsAgree moved : Bool) : Bool :=
  decide (code < -320) || decide (1200 < code) || !railsAgree || (moved && decide (4096 ≤ x.still))

/-- A sensor after a sample. -/
def takeSample (b : Block) (x : Sensor) (code : Int) : Sensor :=
  { x with
    temp := code, still := if x.still ≠ 0 ∧ x.temp = code then min 4096 (x.still + 1) else 1,
    below97 := since b x.below97 (decide (code < 776)), below100 := since b x.below100 (decide (code < 800)),
    below85 := since b x.below85 (decide (code < 680)) }

/-- Is a limit reached: do this sample and the one before reach it (R444)? -/
def reaches (x : Sensor) (code limit : Int) : Bool := x.valid && decide (limit ≤ x.temp) && decide (limit ≤ code)

/-- An engine is fenced for its temperature, or for want of valid sensors (R448). -/
def overTemp (b : Block) (n : Nat) : Block :=
  if b.pwr.hot.contains n then b
  else
    let b := pwrMod b (fun w => { w with hot := w.hot ++ [n] })
    fenceEngine (raise b 0x024 contained 0 0 0 0 (.engine n)) n

/-- How many sensors of an engine are broken. -/
def engBroken (b : Block) (n : Nat) : Nat := ((engSensors n).filter (fun m => (sensorGet b m).broken)).length

/-- The limits of the compute die, the tiers and the base die, after two samples reached them (R445). -/
def dieLimits (b : Block) (m : Nat) (r : Int → Bool) : Block :=
  let same := fun k => decide (sensorStrips k = sensorStrips m)
  let b :=
    if r 800 && !b.pwr.throttle.any same then
      protect (raise (pwrMod b (fun w => { w with throttle := w.throttle ++ [m] })) 0x020 corrected 0 0 0 0 .none)
    else b
  let b :=
    if r 880 && !b.pwr.causes.any (fun c => decide (c.code = 1) && same c.sensor) then enterCause b 1 m else b
  if r 920 then raise b 0x022 fatal 0 0 0 0 .none else b

/-- The throttles and critical causes whose end condition holds end (R445, R449). -/
def endHeat (b : Block) : Block :=
  let cool := fun (m d : Nat) (f : Sensor → Nat) => (regionSensors m).all (fun k =>
    let x := sensorGet b k
    !x.valid || heldFor b (f x) d)
  let b := pwrMod b (fun w => { w with throttle := w.throttle.filter (fun m => !cool m 1000000 (·.below97)) })
  endCauses b (fun c => decide (c.code = 1) && cool c.sensor 10000000 (·.below100))

/-- A sample of a sensor that is not broken. -/
def sampleValid (b : Block) (m : Nat) (code : Int) (bad : Bool) : Block :=
  let x := sensorGet b m
  let y := takeSample b x code
  if bad then
    let b := sensorPut b m { y with broken := true, validSince := 0 }
    let b := if x.masked then raise b 0x023 corrected 0 0 0 0 .none else enterCause b 2 m
    if 512 ≤ m ∧ 3 ≤ engBroken b ((m - 512) / 6) then overTemp b ((m - 512) / 6) else b
  else
    let b := sensorPut b m y
    let r := reaches x code
    endHeat (if m < 512 then dieLimits b m r else if r 760 then overTemp b ((m - 512) / 6) else b)

/-- A sample of a broken sensor: after 1 s of valid readings it is valid again (R446). -/
def sampleBroken (b : Block) (m : Nat) (code : Int) (bad : Bool) : Block :=
  let x := sensorGet b m
  let v := since b x.validSince (!bad)
  if heldFor b v 1000000000 then
    endCauses (sensorPut b m { takeSample b x code with broken := false, validSince := 0 })
      (fun c => decide (c.code = 2) && decide (c.sensor = m))
  else sensorPut b m { takeSample b x code with validSince := v }

/-- A sample of sensor `m` (R444, R446): its raw code in 0.125 °C, whether its rails agree, and whether another sensor of
its die has moved by 1 °C or more over its last 4,096 samples. -/
def temperature (m : Nat) (code : Int) (railsAgree moved : Bool) (b : Block) : Block :=
  if !clocked b then b
  else
    let x := sensorGet b m
    let bad := badSample (takeSample b x code) code railsAgree moved
    if x.broken then sampleBroken b m code bad else sampleValid b m code bad

/-- An engine that was fenced for its temperature starts again: its valid sensors have been below 85 °C for 100 ms, and
at least 4 are valid (R448). -/
def overTempRestart (n : Nat) (b : Block) : Block :=
  let cool := (engSensors n).all (fun m => !(sensorGet b m).valid || heldFor b (sensorGet b m).below85 100000000)
  if clocked b && !b.flt.fatal && b.pwr.hot.contains n && !b.flt.held.contains n && cool && decide (engBroken b n ≤ 2) then
    resetEngine b n
  else b

/-- The sensors that hold at most one mask together with sensor `m`: its compute group, its tier, or the base die (R447). -/
def maskGroup (m : Nat) : List Nat :=
  if m < 240 then (List.range 15).map (fun i => m / 15 * 15 + i)
  else if m < 480 then (List.range 60).map (fun i => 240 + (m - 240) / 60 * 60 + i)
  else (List.range 32).map (fun i => 480 + i)

/-- A write to `THERM_MASK_CMD` (R447, R455). -/
def thermMask (w : Word) (b : Block) : Block :=
  let m := fld w 0 10
  if !actServed b || decide (fld w 24 8 ≠ 0x54) then b
  else if 512 ≤ m ∨ !(sensorGet b m).broken ∨ (maskGroup m).any (fun k => (sensorGet b k).masked) then regSet b 0x50010 1 1 1
  else
    let b := sensorPut (regSet b 0x50010 1 1 0) m { sensorGet b m with masked := true }
    endHeat (endCauses b (fun c => decide (c.code = 2) && decide (c.sensor = m)))

/-! ### Supply (R449, R451, R452) -/

/-- Notes since when a condition on the input has held. -/
def noteOver (b : Block) (k : Nat) (c : Bool) : Block :=
  pwrMod b (fun w => { w with overSince := tput 0 w.overSince k (since b (tget 0 w.overSince k) c) })

/-- The same for an end condition. -/
def noteEnd (b : Block) (k : Nat) (c : Bool) : Block :=
  pwrMod b (fun w => { w with endSince := tput 0 w.endSince k (since b (tget 0 w.endSince k) c) })

/-- A cause of the supply enters where its condition has held long enough and it is not in force. -/
def supplyCause (b : Block) (code : Nat) (c : Bool) : Block := if c && !causeIn b code then enterCause b code 0 else b

/-- `VIN_FATAL` is raised where the condition has held long enough; while `PERST#` is asserted the logic is in reset (R451, R523). -/
def supplyFatal (b : Block) (c : Bool) : Block :=
  if c && !b.flt.fatal && !b.reports.any (fun r => decide (r.source = 0x01B)) then raise b 0x01B fatal 0 0 0 0 .none else b

/-- A supply sample, every 10 µs: input voltage in mV, current in 10 mA, power in 0.1 W. -/
def inputPower (mV tenMilliAmp deciWatt : Nat) (b : Block) : Block :=
  if !clocked b then b
  else
    let b := pwrMod b (fun w => { w with vin := mV, iin := tenMilliAmp, samples := (deciWatt :: w.samples).take 100 })
    let b := noteOver (noteOver (noteOver (noteOver b 0 (decide (mV < 39000))) 1 (decide (61000 < mV))) 2 (decide (mV < 36000)))
      3 (decide (64000 < mV))
    let b := noteEnd (noteEnd (noteEnd b 0 (decide (40000 ≤ mV))) 1 (decide (mV ≤ 60000))) 2 (decide (10 * b.pwr.samples.sum < 9 * powerLimit b * b.pwr.samples.length))
    let heldOver := fun k d => heldFor b (tget 0 b.pwr.overSince k) d
    let done := fun k => heldFor b (tget 0 b.pwr.endSince k) 10000000
    let b := supplyCause (supplyCause (supplyCause b 3 (heldOver 0 20000)) 4 (heldOver 1 20000)) 5 (powerAbove b)
    let b := supplyFatal b (heldOver 2 1000000 || heldOver 3 10000)
    endCauses b (fun c => (decide (c.code = 3) && done 0) || (decide (c.code = 4) && done 1) || (decide (c.code = 5) && done 2))

/-! ### Gaits, domains and clocks -/

/-- The governor's period (R440, R441): causes that a load has brought to a paddock are announced, and reclaims and raises follow. -/
def governorPeriod (b : Block) : Block := if clocked b && !b.flt.fatal then governor (announceCauses b) else b

/-- A domain's ramp ends (R436): decided gaits of idle paddocks take effect (R442). -/
def rampDone (d mV : Nat) (b : Block) : Block :=
  let x := domGet b d
  if clocked b && x.ramping then
    let y : Domain := { x with level := x.want, ramping := false, milliVolt := mV }
    applyIdle (domPut b d y)
  else b

/-- A clock switch abandons its handshake (R431). -/
def stoppedSource (p : Nat) (b : Block) : Block :=
  if clocked b && decide ((padGet b p).st ≠ .free) then raise (regCount b 0x30000 16 16 1) 0x012 corrected 0 0 0 0 .none else b

/-- A write to `GAIT_MODULE_W` (R439, R454). -/
def gaitModuleW (w : Word) (b : Block) : Block :=
  if !writeServed b then b
  else if 6400 * min (fld w 0 16) 27140 < committedSum b then regSet b 0x40004 16 1 1
  else tracked (fun b => regStore (regSet b 0x40004 16 1 0) 0x40000 0x40000 w) b

/-- A domain has stayed off its set point for 10 µs: `VDOM_FAULT`; its regulator restarts (R436). -/
def domainFault (d mV : Nat) (b : Block) : Block :=
  let x := domGet b d
  let v := setPoint x.level
  if clocked b ∧ !x.ramping ∧ (20 * mV < 19 * v ∨ 21 * v < 20 * mV) then
    let y : Domain := { x with milliVolt := mV, ramping := true }
    raise (domPut b d y) 0x01C contained 0 0 (at_ 0 d) 0 (.strip d)
  else b

/-! ### Meanings -/

/-- `GOVERNOR_PERIOD` (R440). -/
def execGovernorPeriod (s : State) : Host.Outcome State Fault Refusal := onBlk governorPeriod s

/-- `DOMAIN_RAMP_DONE` (R436). -/
def execDomainRampDone (d : Fin 16) (milliVolt : Nat) (s : State) : Host.Outcome State Fault Refusal := onBlk (rampDone d.val milliVolt) s

/-- `CLK_STOPPED_SOURCE` (R431). -/
def execClkStoppedSource (p : Fin 64) (s : State) : Host.Outcome State Fault Refusal := onBlk (stoppedSource p.val) s

/-- `GAIT_MODULE_W_WRITE` (R439). -/
def execGaitModuleWWrite (w : Word) (s : State) : Host.Outcome State Fault Refusal := onBlk (gaitModuleW w) s

/-- `TEMPERATURE_SAMPLE` (R444). -/
def execTemperatureSample (m : Fin 560) (code : Int) (railsAgree moved : Bool) (s : State) : Host.Outcome State Fault Refusal :=
  onBlk (temperature m.val code railsAgree moved) s

/-- `OE_OVERTEMP_RESTART` (R448). -/
def execOeOvertempRestart (n : Fin 8) (s : State) : Host.Outcome State Fault Refusal := onBlk (overTempRestart n.val) s

/-- `THERM_MASK_CMD` (R447). -/
def execThermMaskCmd (w : Word) (s : State) : Host.Outcome State Fault Refusal := onBlk (thermMask w) s

/-- `INPUT_POWER_SAMPLE` (R449). -/
def execInputPowerSample (milliVolt tenMilliAmp deciWatt : Nat) (s : State) : Host.Outcome State Fault Refusal :=
  onBlk (inputPower milliVolt tenMilliAmp deciWatt) s

/-- `VDOM_FAULT` (R436). -/
def execVdomFault (d : Fin 16) (milliVolt : Nat) (s : State) : Host.Outcome State Fault Refusal := onBlk (domainFault d.val milliVolt) s

end Sys2Proof.Machine
end

