-- ==== Sys2Proof/Machine/Collector.lean ====
section
/-! DEFINITION. The fault collector: sampling, ordering, records, promotion, units, windows and actions, the fatal state and its record,
injection (R457 to R474, R479 to R481, R528). -/

namespace Sys2Proof.Machine

/-! ### Sources and units (R466, R480) -/

/-- Is a source ID in a row of R480 and not reserved? -/
def knownSource (s : Nat) : Bool :=
  decide (s ≤ 6) || s == 8 || s == 9 || (decide (0x10 ≤ s) && decide (s ≤ 0x13)) || (decide (0x18 ≤ s) && decide (s ≤ 0x1C))
    || (decide (0x20 ≤ s) && decide (s ≤ 0x24)) || (decide (0x40 ≤ s) && decide (s < 0xC0) && decide (s % 16 ≤ 5))
    || (decide (0xC0 ≤ s) && decide (s ≤ 0xC4)) || (decide (0x100 ≤ s) && decide (s ≤ 0x10B))
    || (decide (0x110 ≤ s) && decide (s ≤ 0x112)) || (decide (0x120 ≤ s) && decide (s ≤ 0x122)) || s == 0x180 || s == 0x181
    || (decide (0x200 ≤ s) && decide (s < 0x300) && decide (s % 32 ≠ 7)) || (decide (0x300 ≤ s) && decide (s < 0x340) && decide (s % 8 ≤ 3))
    || (decide (0x340 ≤ s) && decide (s ≤ 0x344)) || (decide (0x380 ≤ s) && decide (s ≤ 0x3A7))
    || (decide (0x3B0 ≤ s) && decide (s ≤ 0x3B9)) || (decide (0x400 ≤ s) && decide (s ≤ 0x16BF))

/-- Is a source a team source (R39)? -/
def isTeamSource (s : Nat) : Bool := decide (0x400 ≤ s) && decide (s ≤ 0x16BF)

/-- Does a source give its place in the grid in D0 (R463)? -/
def hasPlace (s : Nat) : Bool :=
  isTeamSource s || (decide (0xC0 ≤ s) && decide (s ≤ 0xC4)) || (decide (0x108 ≤ s) && decide (s ≤ 0x10B))

/-- The physical team, 60 × column + row, that a report names: by its source, or by its place. -/
def physTeam (r : Report) : Nat := if isTeamSource r.source then r.source - 0x400 else 60 * fld r.d0 0 7 + fld r.d0 7 6

/-- The logical team at a physical place; none for a retired one. -/
def logicalTeam (b : Block) (ph : Nat) : Option Nat :=
  let d := (tget (59, false) b.retired (ph / 60)).1
  if ph % 60 = d then none else some (59 * (ph / 60) + (if ph % 60 < d then ph % 60 else ph % 60 - 1))

/-- Does a report come from a retired team, which never raises a fault (R37, R39)? -/
def fromRetired (b : Block) (r : Report) : Bool := hasPlace r.source && decide (physTeam r < 4800) && (logicalTeam b (physTeam r)).isNone

/-- Is a source one of the two that a stack's controller reports under: an uncorrectable, a corrected error (R97)? -/
def isHbmSource (s kind : Nat) : Bool := decide (0x40 ≤ s) && decide (s < 0xC0) && decide (s % 16 = kind)

/-- The unit of a team: its paddock, or the team itself outside every paddock. -/
def teamUnits (b : Block) (ph : Nat) : List FUnit :=
  match logicalTeam b ph with
  | some k => [unitOf b k]
  | none => []

/-- The units of an optical or die-to-die source (R340, R367). -/
def linkUnits (s : Nat) : List FUnit :=
  if s < 0x300 then
    let n := (s - 0x200) / 32
    match s % 32 with
    | 2 => [.port (4 * n), .port (4 * n + 1)]
    | 3 => [.port (4 * n + 2), .port (4 * n + 3)]
    | m => if m < 8 then [.engine n] else [.port (4 * n + (m - 8) / 6)]
  else [.engine ((s - 0x300) / 8)]

/-- The units that a source charges, by its ID and detail (R463, R466, R480). -/
def sourceUnits (b : Block) (r : Report) : List FUnit :=
  let s := r.source
  if s = 4 ∨ s = 5 then [.store]
  else if s = 0x01C then (stripPads b (fld r.d2 0 4)).map .paddock
  else if s = 0x024 then [.engine (fld r.d0 0 3)]
  else if isHbmSource s 1 then (if bit r.d0 25 then [.paddock (fld r.d0 19 6)] else [])
  else if isTeamSource s then teamUnits b (physTeam r)
  else if hasPlace s then (if bit r.d0 25 then [.paddock (fld r.d0 19 6)] else [])
  else if 0x100 ≤ s ∧ s ≤ 0x107 then [.paddock (fld r.d0 12 6)]
  else if s = 0x110 ∨ s = 0x111 ∨ s = 0x120 ∨ s = 0x3A7 then [.paddock (fld r.d0 19 6)]
  else if s = 0x121 ∨ s = 0x180 ∨ s = 0x3A0 then [.session (fld r.d0 0 14)]
  else if 0x200 ≤ s ∧ s < 0x340 then linkUnits s
  else if 0x340 ≤ s ∧ s ≤ 0x344 then [.hostif]
  else if 0x380 ≤ s ∧ s < 0x3A0 then [.port (s - 0x380)]
  else if 0x3B0 ≤ s ∧ s ≤ 0x3B9 then [.pair]
  else [.none]

/-- The units of a report: those its detector named, or those of its source.  Outside every paddock only a team source charges its team;
any other source is logged there (R528). -/
def unitsOf (b : Block) (r : Report) : List FUnit :=
  match r.unit with
  | .none => sourceUnits b r
  | .strip d => (stripPads b d).map .paddock
  | .team k => if isTeamSource r.source then [.team k] else []
  | .port p => if 0x200 ≤ r.source ∧ r.source < 0x300 then linkUnits r.source else [.port p]
  | u => [u]

/-- Can a report's unit not be fenced: the base die, an HBM stack, the collector (R466)? -/
def unfenceable (b : Block) (r : Report) : Bool := (unitsOf b r).contains .none

/-! ### What a cycle samples (R457, R458, R460, R473) -/

/-- The report of a detector outside the modelled commands; that of a contained `HBM_UE` can name sessions (R97). -/
def takeDetect (b : Block) (d : Detect) : Option Report :=
  let w : Word := 0xFFFFFFFF
  let unit := if isHbmSource d.source 1 && decide (d.sessions ≠ []) then .sessions (d.sessions.map (·.val)) else .none
  let r : Report := ⟨d.source, d.cls % 4, if d.detailBad then w else d.d0, if d.detailBad then w else d.d1,
    if d.detailBad then w else d.d2, if d.detailBad then w else d.d3, unit, b.time, d.railBroken, false, false, true⟩
  if !knownSource d.source || fromRetired b r then none
  else if d.railBroken then some { r with cls := if unfenceable b r then fatal else contained }
  else if d.cls % 4 = 0 then none
  else some r

/-- The report of highest class, the first detected among equals. -/
def highest : List Report → Option Report
  | [] => none
  | r :: l =>
    match highest l with
    | some s => if s.cls ≤ r.cls then some r else some s
    | none => some r

/-- What a source presents: the first report it detected, or the next of those it held. -/
def present (all : List Report) (src : Nat) : Option Report :=
  let l := all.filter (fun r => r.source = src)
  if l.any (·.held) then highest l else l.head?

/-- Puts a report into an order: descending class, then ascending source. -/
def insRep (r : Report) : List Report → List Report
  | [] => [r]
  | s :: l => if s.cls < r.cls ∨ (s.cls = r.cls ∧ r.source < s.source) then r :: s :: l else s :: insRep r l

/-! ### Records (R461 to R464) -/

/-- Changes the record of a number. -/
def recMod (b : Block) (n : Nat) (f : Rec → Rec) : Block :=
  fltMod b (fun x => { x with log := x.log.map (fun r => if r.num = n then f r else r) })

/-- Sets the action of a record, and whether it has completed. -/
def recAct (b : Block) (n a : Nat) (done : Bool) : Block :=
  recMod b n (fun r => { r with action := a, rflags := r.rflags % 16 + (r.rflags / 32) * 32 + 16 * done.toNat })

/-- Bytes 4 and 5 of a record. -/
def recWord (r : Rec) : Nat := r.source % 2 ^ 13 + 2 ^ 13 * r.cls + 2 ^ 15 * r.companion.toNat

/-- The 32 bytes of a record (R462). -/
def recBytes (r : Rec) : List Byte :=
  bytesOf 4 r.num ++ bytesOf 2 (recWord r) ++ bytesOf 1 r.rflags ++ bytesOf 1 r.action ++ bytesOf 8 r.time
    ++ bytesOf 4 r.d0.toNat ++ bytesOf 4 r.d1.toNat ++ bytesOf 4 r.d2.toNat ++ bytesOf 4 r.d3.toNat

/-- The record number after `n`. -/
def nextNum (n : Nat) : Nat := if (n + 1) % 2 ^ 32 = 0 then 1 else (n + 1) % 2 ^ 32

/-- Records in the log (R464). -/
def logSize : Nat := 4096

/-- Writes a record to the log, complete as logged only, and its event (R464, R481). -/
def writeRecord (b : Block) (r : Report) (flags : Nat) (companion : Bool) : Block :=
  let n := nextNum b.flt.newest
  let x : Rec := ⟨n, r.source, r.cls, companion, flags + 16, 9, r.time, r.d0, r.d1, r.d2, r.d3⟩
  let full := decide (logSize ≤ b.flt.log.length)
  let lost := full && (b.flt.log.head?.any (fun o => !b.flt.seen.contains o.num))
  let b := if lost then regSet b 0x60004 4 1 1 else b
  let b := fltMod b (fun f => { f with
    newest := n, log := (if full then f.log.drop 1 else f.log) ++ [x],
    counts := tput 0 f.counts r.source (min (2 ^ 32 - 1) (tget 0 f.counts r.source + 1)),
    seen := f.seen.filter (fun k => !full || decide (f.log.head?.map (·.num) ≠ some k)) })
  if b.flt.fatal || (decide (r.cls = corrected) && !regFld b 0x60000 2 1 = 1) then b
  else event b 8 (recWord x) n (r.d0.toNat + 2 ^ 32 * r.d1.toNat + 2 ^ 64 * r.d2.toNat)

/-! ### Promotion (R82, R465) -/

/-- Is a source counted per team: a tier source? -/
def tierEvent (s : Nat) : Bool := decide (0xC0 ≤ s) && decide (s ≤ 0xC3)

/-- The key under which a source's promotion of this second is noted. -/
def rateKey (r : Report) : Nat := if tierEvent r.source then 8192 + physTeam r else r.source

/-- Counts a corrected report, and promotes it where the count of its source, or of its team, has exceeded the threshold. -/
def promote (b : Block) (r : Report) : Block × Report × Nat :=
  if r.cls ≠ corrected ∨ r.injected then (b, r, 0)
  else
    let tier := tierEvent r.source
    let key := if tier then physTeam r else r.source
    let n := tget 0 (if tier then b.flt.teamRate else b.flt.rate) key
    let limit := if tier then regFld b 0x80100 0 16 else regFld b 0x600A0 0 16
    if !unfenceable b r && decide (limit < n) && !b.flt.promoted.contains (rateKey r) then
      (fltMod b (fun f => { f with promoted := f.promoted ++ [rateKey r] }), { r with cls := contained }, 2)
    else
      let b := fltMod b (fun f => if tier then { f with teamRate := tput 0 f.teamRate key (n + 1) }
        else { f with rate := tput 0 f.rate key (n + 1) })
      (if unfenceable b r && decide (limit ≤ n + 1) then regSet b 0x60004 2 1 1 else b, r, 0)

/-! ### Actions (R466 to R469, R528) -/

/-- A physical team is marked failed (R469). -/
def markFailed (b : Block) (ph : Nat) : Block :=
  if b.flt.failed.contains ph then b
  else raise (fltMod b (fun f => { f with failed := f.failed ++ [ph] })) 0x112 corrected 0 0 0 0 .none

/-- Does a paddock hold a failed team? -/
def padFailed (b : Block) (x : Pad) : Bool := x.teams.any (teamFailed b)

/-- Is a paddock loading, or fenced while it loaded? -/
def Pad.inLoad (x : Pad) : Bool :=
  decide (x.st = .loading) || ((decide (x.st = .fenced) || decide (x.st = .restoring)) && decide (x.back = .loading))

/-- The default action of a paddock for a source; a per-paddock reset that has not completed is still due. -/
def padDefault (b : Block) (x : Pad) (src : Nat) : Nat :=
  if padFailed b x then 3
  else if x.inLoad ∨ x.act = 2 ∨ isTeamSource src ∨ src = 0x106 ∨ src = 0x01C ∨ src = 0x110 then 2
  else 1

/-- Takes an action on a fenced paddock: 1 step restore, 2 per-paddock reset, 3 forced off. -/
def padAct (b : Block) (p a n : Nat) : Block :=
  let b := recAct (padMod b p (fun x => { x with act := a, recs := x.recs ++ [n] })) n a false
  if a = 3 then
    if (padGet b p).inLoad then
      let x := padGet b p
      abandonLoad b p 0x0201 (shortReport [(2, x.area, (freeTeams (freePad b p) false).length)])
    else forceOff b p
  else beginRestore b p

/-- Is a window running on a unit? -/
def windowOn (b : Block) (u : FUnit) : Bool := b.flt.windows.any (fun w => decide (w.unit = u))

/-- The length of a window in ns: `WIN_US`, from 10 to 100,000 (R467, R481). -/
def windowNs (b : Block) : Nat := 1000 * max 10 (min (regFld b 0x60000 8 17) 100000)

/-- Opens the window of a unit: its record has no action yet. -/
def openWindow (b : Block) (n : Nat) (u : FUnit) (a : Nat) : Block :=
  recAct (fltMod b (fun f => { f with windows := f.windows ++ [⟨n, u, a, b.time + windowNs b⟩] })) n 0 false

/-- A contained fault on a paddock, with the source that its default action follows: fenced at detection; its step restore is taken at
once under `AUTO_STEP`. -/
def padFault (b : Block) (n src p : Nat) : Block :=
  let x := padGet b p
  if x.st = .free ∨ windowOn b (.paddock p) then b
  else
    let a := padDefault b x src
    let b := fencePad b p
    if a = 1 ∧ regFld b 0x60000 0 1 = 1 then padAct b p 1 n else openWindow b n (.paddock p) a

/-- A contained fault on an engine. -/
def engFault (b : Block) (n : Nat) (r : Report) (e : Nat) : Block :=
  if windowOn b (.engine e) || b.flt.held.contains e then b
  else openWindow (if r.ext then fenceEngine b e else b) n (.engine e) 4

/-- A contained fault on the host interface: fetching and writing stop. -/
def hostFault (b : Block) (n : Nat) : Block :=
  if windowOn b .hostif then b else openWindow (fltMod b (fun f => { f with hostDown := true })) n .hostif 5

/-- A contained fault on a port: it goes down and starts again. -/
def portFault (b : Block) (n : Nat) (r : Report) (p : Nat) : Block :=
  let b := if !r.ext then b
    else if 0x380 ≤ r.source ∧ r.source < 0x3A0 then (portLinks b p).foldl (fun b l => portFence b l (fld r.d0 0 4)) b
    else downLinks b p 8
  recAct (portRestart b p) n 6 true

/-- A contained fault of a session: its running turn closes; one of the session table quarantines the slot (R113, R241); an injected
one names no slot (R474). -/
def sessionFault (b : Block) (n : Nat) (r : Report) (k : Nat) : Block :=
  if r.injected then b
  else
    let b := recAct b n 7 true
    if !r.ext then b
    else if r.source = 0x180 then slotMod (faultSession b k) k (fun z => { z with st := 5 })
    else if (slotGet b k).st = 0 then b
    else faultSession b k

/-- What a contained fault does to one of its units (R466, R467, R474).  DEDUCED: a promoted record is none of the faults that R466
names for a per-paddock reset, so that its paddock takes the step restore (log 102). -/
def unitFault (n : Nat) (r : Report) (promoted : Bool) (b : Block) (u : FUnit) : Block :=
  match u with
  | .paddock p => padFault b n (if promoted then 0 else r.source) p
  | .team k => recAct (markFailed b (60 * keyCol k + physRow b (keyCol k) (keyRow k))) n 10 true
  | .session k => sessionFault b n r k
  | .sessions l => l.foldl (fun b k => sessionFault b n r k) b
  | .port p => portFault b n r p
  | .engine e => engFault b n r e
  | .hostif => hostFault b n
  | .store => fltMod b (fun f => { f with storeDown := true })
  | .strip _ => b
  | .pair => b
  | .none => b

/-- Does a team run a self-test? -/
def underTest (b : Block) (ph : Nat) : Bool :=
  match logicalTeam b ph with
  | some k => b.pwr.tests.any (fun e => e.2.started && !e.2.hbm && (rectTeams e.2.col e.2.row e.2.width e.2.height).contains k)
  | none => false

/-- What a fault does to its team (R469): marked failed at any fault under self-test, and at a second contained fault from its
source within 10 s. -/
def teamFault (b : Block) (r : Report) : Block :=
  let ph := physTeam r
  if !hasPlace r.source then b
  else
    let b := if underTest b ph then markFailed b ph else b
    if r.cls = contained ∧ isTeamSource r.source then
      let t := tget 0 b.flt.teamLast r.source
      let b := fltMod b (fun f => { f with teamLast := tput 0 f.teamLast r.source (r.time + 1) })
      if t ≠ 0 ∧ r.time + 1 ≤ t + 10000000000 then markFailed b ph else b
    else b

/-! ### The fatal state (R470) -/

/-- The module enters the fatal state. -/
def enterFatal (b : Block) : Block :=
  if b.flt.fatal then b
  else
    let b := fltMod b (fun f => { f with fatal := true, windows := [] })
    let b := (loadedPads b).foldl fencePad b
    let b := if b.sec.cmd.isSome then storeFail (secMod b (fun s => { s with cmd := none })) 6 else b
    alertPin (pairStops b)

/-! ### A collector cycle (R460) -/

/-- What a stack's status shows of an error that its controller reports (R114). -/
def noteHbm (b : Block) (r : Report) : Block :=
  if !r.ext || r.injected then b
  else if isHbmSource r.source 1 then regSet b (0x80000 + 4 * ((r.source - 0x40) / 16)) 2 1 1
  else if isHbmSource r.source 2 then regCount b (0x80000 + 4 * ((r.source - 0x40) / 16)) 16 16 1
  else b

/-- Handles one report of a cycle: its record, its event, its effect.  `was` says that the fatal state was in force before the
cycle. -/
def handle (was : Bool) (b : Block) (r : Report) (flags : Nat) (companion : Bool) : Block :=
  let up := decide (r.cls = contained) && !r.injected && !was && unfenceable b r
  let flags := flags + 4 * r.railBroken.toNat + 32 * (up || (r.railBroken && decide (r.cls = fatal))).toNat + 64 * r.injected.toNat
  let b := writeRecord (noteHbm b r) r flags companion
  let n := b.flt.newest
  if r.cls = fatal then recAct b n 8 true
  else if b.flt.fatal then (if r.cls = contained then recAct b n 8 true else b)
  else
    let us := unitsOf b r
    let b := teamFault b r
    if r.cls = contained then us.foldl (unitFault n r (decide (flags / 2 % 2 = 1))) b else b

/-- Handles the reports of a cycle in order. -/
def handleAll (was : Bool) (pend : Option Nat) : List (Report × Nat) → Bool → Block → Block
  | [], _, b => b
  | (r, f) :: l, c, b =>
    handleAll was pend l true
      (handle was b r (f + (decide (pend = some r.source) && !r.injected).toNat) c)

/-- Promotes what is to be promoted, in the order given. -/
def promoteAll : List Report → Block → Block × List (Report × Nat)
  | [], b => (b, [])
  | r :: l, b =>
    let x := promote b r
    let y := promoteAll l x.1
    (y.1, x.2 :: y.2)

/-- Puts pairs of reports and flags into the order of their reports. -/
def sortReps (l : List (Report × Nat)) : List (Report × Nat) :=
  (l.foldr (fun e m => insRep e.1 m) []).filterMap (fun r => l.find? (fun e => e.1 = r))

/-- The fault that made the state fatal: the first fatal, or escalated, record of a list. -/
def fatalOf (l : List Rec) : Option Rec := l.find? (fun r => decide (r.cls = fatal) || decide (r.rflags / 32 % 2 = 1))

/-- One cycle of the collector: every source presents at most one report; the others stay held. -/
def collect (ext : List Detect) (b : Block) : Block :=
  if !clocked b then b
  else
    let all := b.reports ++ ext.filterMap (takeDetect b)
    let shown := (all.map (·.source)).eraseDups.filterMap (present all)
    let rest := (shown.foldl (fun l r => l.erase r) all).map (fun r => { r with held := true })
    let b := { b with reports := rest }
    let busy := b.flt.inj.any (fun i => shown.any (fun r => decide (r.source = i.source)))
    let pend := if busy then b.flt.inj.map (·.source) else none
    let inj := if busy then [] else (b.flt.inj.map (fun i => { i with time := b.time })).toList
    let b := if busy then b else fltMod b (fun f => { f with inj := none })
    let x := promoteAll (shown ++ inj) b
    let l := sortReps x.2
    let b := x.1
    let was := b.flt.fatal
    let dies := l.any (fun e => decide (e.1.cls = fatal) || (decide (e.1.cls = contained) && !e.1.injected && unfenceable b e.1))
    let b := if dies then enterFatal b else b
    let b := handleAll was pend l false b
    let new := b.flt.log.drop (b.flt.log.length - l.length)
    let b := fltMod b (fun f => { f with first := if f.first.isSome then f.first else new.head? })
    if dies && !was then fltMod b (fun f => { f with fatalRec := fatalOf new }) else b

/-! ### Windows and acknowledgements (R467, R468) -/

/-- The per-engine reset of a fenced engine. -/
def engAct (b : Block) (e n : Nat) : Block :=
  if (engGet b e).fenced then
    resetEngine (fltMod b (fun f => { f with waits := f.waits ++ [(e, n)] })) e
  else recAct b n 4 true

/-- The host-interface reset. -/
def hostAct (b : Block) (n : Nat) : Block :=
  let b := recAct (fltMod b (fun f => { f with waits := f.waits ++ [(8, n)] })) n 5 false
  if b.flt.hostDown then hostReset b false
  else if b.host.busy then b
  else waitsDone b 8

/-- The default action of a window; an overtemperature engine waits under R448. -/
def takeDefault (b : Block) (w : Window) : Block :=
  match w.unit with
  | .paddock p =>
    let x := padGet b p
    if x.st = .fenced then padAct b p (if padFailed b x then 3 else w.action) w.num else recAct b w.num w.action true
  | .engine e =>
    if b.pwr.hot.contains e then recAct (fltMod b (fun f => { f with waits := f.waits ++ [(e, w.num)] })) w.num 4 false
    else engAct b e w.num
  | .hostif => hostAct b w.num
  | _ => b

/-- The action that an acknowledgement chooses for a unit: 0 default, 1 its reset, 2 forced off or held. -/
def ackAct (b : Block) (w : Window) (a : Nat) : Block :=
  match a, w.unit with
  | 1, .paddock p => padAct b p 2 w.num
  | 1, .engine e => engAct b e w.num
  | 2, .paddock p => padAct b p 3 w.num
  | 2, .engine e => fltMod b (fun f => { f with held := f.held ++ [e], waits := f.waits ++ [(e, w.num)] })
  | _, _ => takeDefault b w

/-- The windows of a record. -/
def windowsOf (b : Block) (n : Nat) : List Window := b.flt.windows.filter (fun w => w.num = n)

/-- Closes the windows of a record. -/
def closeWindows (b : Block) (n : Nat) : Block := fltMod b (fun f => { f with windows := f.windows.filter (fun w => w.num ≠ n) })

/-- The window of a record expires: the default action is taken. -/
def windowExpiry (n : Nat) (b : Block) : Block :=
  if clocked b && !b.flt.fatal && (windowsOf b n).all (fun w => decide (w.ends ≤ b.time)) then
    (windowsOf b n).foldl takeDefault (closeWindows b n)
  else b

/-- A write to `FAULT_ACK_CMD`. -/
def faultAck (w : Word) (b : Block) : Block :=
  if !actServed b || decide (fld w 24 8 ≠ 0x46) then b
  else
    let n := (regGet b 0x60080).toNat
    let a := fld w 0 2
    let ws := windowsOf b n
    if ws = [] ∨ a = 3 ∨ (a = 2 ∧ ws.any (fun w => decide (w.unit = .hostif))) then regSet b 0x60004 3 1 1
    else
      let b := recMod (closeWindows b n) n (fun r => { r with rflags := r.rflags ||| 8 })
      ws.foldl (fun b w => ackAct b w a) b

/-- A write to `FAULT_FIRST_CLR` (R461). -/
def firstClr (w : Word) (b : Block) : Block :=
  if actServed b && bit w 0 then fltMod b (fun f => { f with first := none }) else b

/-- A write to `FAULT_INJ_CTRL` (R472). -/
def injArm (w : Word) (b : Block) : Block :=
  if !actServed b || !bit w 0 || decide (fld w 24 8 ≠ 0x49) then b
  else
    let sel := regGet b 0x600C0
    let s := fld sel 0 13
    let c := fld sel 13 2
    if !debugOpen b || (decide (c = fatal) && decide (debugLevel b ≠ 2)) then regSet b 0x600C4 2 1 1
    else
      let b := regSet b 0x600C4 2 1 0
      let r : Report := ⟨s, c, regGet b 0x600D0, regGet b 0x600D4, regGet b 0x600D8, regGet b 0x600DC, .none, b.time, false, true, false, true⟩
      if c = 0 ∨ !knownSource s ∨ fromRetired b r then b else fltMod b (fun f => { f with inj := some r })

/-- A second of device time ends: the counts start again (R465). -/
def secondEnds (b : Block) : Block := fltMod b (fun f => { f with rate := [], teamRate := [], promoted := [] })

/-! ### The fatal record (R471) -/

/-- The hottest valid sensor of indexes 0 to 511 (R455). -/
def hottest (b : Block) : Option (Nat × Int) :=
  (b.pwr.sensors.filter (fun e => decide (e.1 < 512) && e.2.valid)).foldl (fun m e =>
    match m with
    | some n => if n.2 < e.2.temp then some (e.1, e.2.temp) else some n
    | none => some (e.1, e.2.temp)) none

/-- `THERM_HOT`. -/
def thermHot (b : Block) : Word :=
  match hottest b with
  | some (m, t) => at_ 0 (twos 12 t) ||| at_ 12 m
  | none => 0

/-- The index of the fatal record in a slot of the store, where it is valid: its magic is there. -/
def flogIndex (b : Block) (i : Nat) : Option Nat :=
  let l := cellBytes b.sec.store (0x300000 + 4096 * i) 8
  if leAt l 0 4 = 0x4C464446 then some (leAt l 4 4) else none

/-- The newest valid fatal record: its slot and index. -/
def flogNewest (b : Block) : Option (Nat × Nat) :=
  (List.range 128).foldl (fun m i =>
    match flogIndex b i, m with
    | some n, some (_, k) => if k ≤ n then some (i, n) else m
    | some n, none => some (i, n)
    | none, _ => m) none

/-- The 4 KiB of a fatal record. -/
def fatalBytes (b : Block) (index : Nat) : List Byte :=
  let rb := fun (r : Option Rec) => match r with
    | some r => recBytes r
    | none => List.replicate 32 0
  padTo 4096 (padTo 256 (bytesOf 4 0x4C464446 ++ bytesOf 4 index ++ bytesOf 8 b.time ++ rb b.flt.fatalRec ++ rb b.flt.first
    ++ bytesOf 2 b.pwr.vin ++ bytesOf 2 (powerW b) ++ bytesOf 4 (thermHot b).toNat)
    ++ (b.flt.log.drop (b.flt.log.length - 120)).flatMap recBytes)

/-- Swizen stores the fatal record. -/
def storeFatal (b : Block) : Block :=
  if b.flt.fatal && !b.flt.stored && rootRuns b then
    let k := match flogNewest b with
      | some (_, k) => k + 1
      | none => 0
    let l := fatalBytes b k
    fltMod (secMod b (fun s => { s with store := putBytes s.store (0x300000 + 4096 * (k % 128)) l })) (fun f => { f with stored := true })
  else b

/-- The word that `FAULT_FLOG_DATA` shows (R481). -/
def flogWord (b : Block) : Word :=
  let s := regGet b 0x60204
  BitVec.ofNat 32 (leNat (cellBytes b.sec.store (0x300000 + 4096 * fld s 0 7 + 4 * fld s 7 10) 4))

/-! ### Meanings -/

/-- `FAULT_REPORT` (R460). -/
def execFaultReport (ext : List Detect) (s : State) : Host.Outcome State Fault Refusal := onBlk (collect ext) s

/-- `FATAL_RECORD_STORE` (R471). -/
def execFatalRecordStore (s : State) : Host.Outcome State Fault Refusal := onBlk storeFatal s

/-- `PROMOTION_SECOND_ROLLOVER` (R465). -/
def execPromotionSecondRollover (s : State) : Host.Outcome State Fault Refusal := onBlk secondEnds s

/-- `FAULT_WINDOW_EXPIRY` (R467). -/
def execFaultWindowExpiry (n : Word) (s : State) : Host.Outcome State Fault Refusal := onBlk (windowExpiry n.toNat) s

/-- `FAULT_ACK_DEFAULT` (R467): a write of `FAULT_ACK_CMD`. -/
def execFaultAckDefault (w : Word) (s : State) : Host.Outcome State Fault Refusal := onBlk (faultAck w) s

/-- `FAULT_ACK_RESET` (R467): a write of `FAULT_ACK_CMD`. -/
def execFaultAckReset (w : Word) (s : State) : Host.Outcome State Fault Refusal := onBlk (faultAck w) s

/-- `FAULT_ACK_FORCE_OFF` (R468): a write of `FAULT_ACK_CMD`. -/
def execFaultAckForceOff (w : Word) (s : State) : Host.Outcome State Fault Refusal := onBlk (faultAck w) s

/-- `FAULT_FIRST_CLR` (R461). -/
def execFaultFirstClr (w : Word) (s : State) : Host.Outcome State Fault Refusal := onBlk (firstClr w) s

/-- `FAULT_INJ_ARM` (R472). -/
def execFaultInjArm (w : Word) (s : State) : Host.Outcome State Fault Refusal := onBlk (injArm w) s

end Sys2Proof.Machine
end

