-- ==== Sys2Proof/Machine/SelfTest.lean ====
section
/-! DEFINITION. Self-test in service: teams and HBM segments (R475 to R477). -/

namespace Sys2Proof.Machine

/-- Adds a self-test. -/
def addTest (b : Block) (x : SelfT) : Block := pwrMod b (fun w => { w with tests := w.tests ++ [(w.nextTest, x)], nextTest := w.nextTest + 1 })

/-- `SELFTEST` of kind teams: its checks in order, then its claim (R475). -/
def testTeamsCheck (q : Nat) (b : Block) : Block :=
  checkOp b q 0x21 0x08 0 (fun b d =>
    let col := dfield d 0x09 1
    let row := dfield d 0x0A 1
    let w := dfield d 0x0B 1
    let h := dfield d 0x0C 1
    if !roleServes b then finishDesc b q d 0x0104 0 0
    else if 80 < col + w ∨ 59 < row + h then finishDesc b q d 0x0105 0 0
    else if !(List.range w).all (fun i => isReady b 4 (col + i)) then finishDesc b q d 0x0104 0 0
    else if !(rectTeams col row w h).all (teamIdle b) then finishDesc b q d 0x0302 0 0
    else openDesc (addTest b ⟨q, dCookie d, false, col, row, w, h, [], false, b.time⟩) q)

/-- The self-test of an identifier. -/
def testGet (b : Block) (id : Nat) : Option SelfT := (b.pwr.tests.find? (fun e => e.1 = id)).map (·.2)

/-- A claimed test of teams starts once its charge fits the headroom (R439, R475). -/
def testStart (id : Nat) (b : Block) : Block :=
  match testGet b id with
  | some x =>
    if clocked b && !b.flt.fatal && !x.hbm && !x.started && decide (((64 * budget 0 * (x.width * x.height) : Nat) : Int) ≤ headroom b) then
      pwrMod b (fun w => { w with tests := w.tests.map (fun e => if e.1 = id then (e.1, { e.2 with started := true }) else e) })
    else b
  | none => b

/-- The free pool segments from `lo` up, then from 0, at most `n` (R476). -/
def testSegs (b : Block) (n : Nat) : List Nat :=
  let free := fun k => isPool b k && (decide (segGet b k = .clean) || decide (segGet b k = .dirty)) && !b.hbm.testing.contains k
    && !b.hbm.retired.any (fun r => decide (r.seg = k))
  let all := List.range 188416
  ((all.drop b.hbm.testNext ++ all.take b.hbm.testNext).filter free).take n

/-- `SELFTEST` of kind HBM. -/
def testHbmCheck (q : Nat) (b : Block) : Block :=
  checkOp b q 0x21 0x08 1 (fun b d =>
    if !roleServes b || !allReady b 2 8 then finishDesc b q d 0x0104 0 0
    else
      let l := testSegs b (dfield d 0x10 4)
      let next := match l.getLast? with
        | some k => (k + 1) % 188416
        | none => b.hbm.testNext
      let b := hbmMod b (fun h => { h with testing := h.testing ++ l, testNext := next })
      openDesc (addTest b ⟨q, dCookie d, true, 0, 0, 0, 0, l, true, b.time⟩) q)

/-- `DETAIL` of a self-test (R477). -/
def testDetail (b : Block) (x : SelfT) (result found col row : Nat) : Nat :=
  result + 2 ^ 8 * (found % 2 ^ 13) + 2 ^ 21 * col + 2 ^ 28 * row + 2 ^ 64 * ((inUnits (b.time - x.from_ : Nat) 1000).toNat % 2 ^ 32)
    + 2 ^ 96 * (x.segs.length % 2 ^ 32)

/-- A self-test leaves the list and completes. -/
def testEnd (b : Block) (id : Nat) (x : SelfT) (result found col row : Nat) : Block :=
  let e := cookieComp x.pair x.cookie 0 0 (testDetail b x result found col row) 1 true
  post (tracked (fun b => pwrMod b (fun w => { w with tests := w.tests.filter (fun e => e.1 ≠ id) })) b) (compItem e) [e]

/-- The teams of a test that fail are marked failed; those that pass lose any mark (R469, R475). -/
def endTeams (b : Block) (id : Nat) (x : SelfT) (bad : List Nat) : Block :=
  let ts := rectTeams x.col x.row x.width x.height
  let ph := fun k => 60 * keyCol k + physRow b (keyCol k) (keyRow k)
  let l := ts.filter (fun k => bad.contains k)
  let good := (ts.filter (fun k => !bad.contains k)).map ph
  let b := fltMod b (fun f => { f with failed := f.failed.filter (fun p => !good.contains p) })
  let b := (l.map ph).foldl markFailed b
  testEnd b id x (if l = [] then 0 else 1) l.length ((l.head?.map keyCol).getD 0) ((l.head?.map keyRow).getD 0)

/-- A segment leaves a test zeroed; it stays retired where the retirement list holds it (R99, R100, R476). -/
def endSeg (b : Block) (k : Nat) : Block :=
  segPut (segZero b k) k (if b.hbm.retired.any (fun r => r.seg = k) then .retired else .clean)

/-- The HBM test ends: each of its reads that was uncorrectable is recorded as `HBM_UE` and retires its segment; every segment of
the test is left zeroed (R97, R99, R100, R476). -/
def endHbm (b : Block) (id : Nat) (x : SelfT) (bad : List Nat) : Block :=
  let l := bad.filter (fun a => x.segs.contains (a / segBytes))
  let b := hbmMod b (fun h => { h with testing := h.testing.filter (fun k => !x.segs.contains k) })
  let b := x.segs.foldl endSeg (l.foldl (fun b a => hbmUe b a none) b)
  let n := (x.segs.filter (fun k => l.any (fun a => decide (a / segBytes = k)))).length
  testEnd b id x (if n = 0 then 0 else 1) n 0 0

/-- A self-test ends: `bad` holds the logical teams that failed, or the device addresses whose reads were uncorrectable. -/
def testDone (id : Nat) (bad : List Nat) (b : Block) : Block :=
  match testGet b id with
  | some x => if b.flt.fatal || !x.started then b else if x.hbm then endHbm b id x bad else endTeams b id x bad
  | none => b

/-- A segment whose test was aborted is to be zeroed again (R89, R99). -/
def abortSeg (b : Block) (k : Nat) : Block := if segGet b k = .clean then segPut b k .dirty else b

/-- A reset aborts every self-test (R477). -/
def abortTests (b : Block) : Block :=
  b.pwr.tests.foldl (fun b e => testEnd (hbmMod (e.2.segs.foldl abortSeg b) (fun h => { h with testing := [] })) e.1 e.2 2 0 0 0) b

/-! ### Meanings -/

/-- `SELFTEST_TEAMS` (R475). -/
def execSelftestTeams (q : Fin 1024) (s : State) : Host.Outcome State Fault Refusal := onBlk (testTeamsCheck q.val) s

/-- `SELFTEST_START` (R475). -/
def execSelftestStart (id : Nat) (s : State) : Host.Outcome State Fault Refusal := onBlk (testStart id) s

/-- `SELFTEST_HBM` (R476). -/
def execSelftestHbm (q : Fin 1024) (s : State) : Host.Outcome State Fault Refusal := onBlk (testHbmCheck q.val) s

/-- `SELFTEST_DONE` (R477). -/
def execSelftestDone (id : Nat) (bad : List Nat) (s : State) : Host.Outcome State Fault Refusal := onBlk (testDone id bad) s

end Sys2Proof.Machine
end

