-- ==== Sys2Proof/Machine/Resets.lean ====
section
/-! DEFINITION. Power, the reference clock, cold and warm reset, and readiness (R421 to R426, R429, R430, R513, R522, R523). -/

namespace Sys2Proof.Machine

/-! ### What a cold reset leaves (R421, R522) -/

/-- A cold reset keeps the fuses, the flash and the settings store, and what lies outside the module: its input pins, and what it has
put out.  DESIGN CHOICE: between the reset and the fuse read, `ID_STEP`, `ID_SERIAL` and `ID_MEM.WINDOW_GIB` read as `Block.reset` has
them; the moment of the fuse read is not stated for a module that MI3C can read before it (log 142). -/
def coldReset (b : Block) : Block :=
  let b := setReq b false
  let c := Block.reset
  let s := b.sec
  alertPin { c with
    freeCtr := b.freeCtr, retired := b.retired, out := b.out,
    sec := { c.sec with root := s.root, seed := s.seed, serial := s.serial, step := s.step, lifecycle := s.lifecycle, policy := s.policy,
                        therm := s.therm, policyRead := s.policyRead, flash := s.flash, store := s.store },
    pwr := { c.pwr with powered := b.pwr.powered, perst := b.pwr.perst, refOk := b.pwr.refOk },
    pair := { c.pair with railP := b.pair.railP, railN := b.pair.railN, reads := b.pair.reads },
    mgmt := { c.mgmt with low := b.mgmt.low } }

/-- The module starts from a reset, once ROOT is locked and `PERST#` deasserted: at a cold one the fuses and the bank in force are read;
the ROM reads the board equalisation table and boots, the next leaf is set, and the engines test their lanes (R362, R425, R487, R492, R508, R522). -/
def tryStart (b : Block) : Block :=
  if b.pwr.held && b.pwr.powered && b.pwr.locked && !b.pwr.perst && !b.flt.fatal then
    let b := if b.pwr.cold then loadBank (readFuses b) else b
    let b := pwrMod (resetLeaf (bootRom (readEq b))) (fun w => { w with held := false, cold := false })
    let b := (List.range 8).foldl (fun b n => laneTest (routedMode b n) n) b
    if pairOn b then pairMod b (fun x => { x with beating := true, fast := bit (regGet b 0x310000) 2 }) else b
  else b

/-! ### Warm reset (R102, R236, R421 to R424) -/

/-- A loaded paddock at a warm reset: fenced, its record kept, its step gone. -/
def warmPad (x : Pad) : Pad :=
  { x with
    st := .fenced, back := if x.st = .fenced ∨ x.st = .restoring then x.back else x.st, quiet := false, act := 0, step := none,
    run := x.gait, target := x.gait, next := none, raised := 0, cycles := 0, tamperStep := false, doomed := false, faulted := [],
    dead := false }

/-- The records whose window runs at a warm reset: paddocks are reset with their restore, the other units at once. -/
def warmWindow (b : Block) (w : Window) : Block :=
  match w.unit with
  | .paddock p => recAct (padMod b p (fun x => { x with recs := x.recs ++ [w.num] })) w.num 2 false
  | .engine _ => recAct b w.num 4 true
  | .hostif => recAct b w.num 5 true
  | _ => b

/-- The collector over a warm reset: log, first fault and marks are kept. -/
def warmFlt (b : Block) : Block :=
  let ws := b.flt.windows
  let b := fltMod b (fun f => { f with windows := [] })
  let b := ws.foldl warmWindow b
  let b := b.flt.waits.foldl (fun b e => recAct b e.2 (if e.1 = 8 then 5 else 4) true) b
  fltMod b (fun f => { f with counts := [], inj := none, held := [], waits := [], hostDown := false })

/-- The optical side over a warm reset: mislock counts, failed lanes, light and spare requests are kept; a lane that awaited its test
is tested at the next start. -/
def warmOptics (b : Block) : Block :=
  optMod b (fun o => { o with
    eng := [], loops := [], ports := [], addressed := false,
    lanes := tmapAll Lane.init o.lanes (fun _ x => { Lane.init with mislocks := x.mislocks, failed := x.failed, dead := x.dead || x.failed }) })

/-- The fabric layer over a warm reset: the node ID, the flow and responder contexts and the reservations are kept. -/
def warmFabric (b : Block) : Block :=
  fabMod b (fun f => { FabS.init with node := f.node, epoch := f.epoch, flows := f.flows, resp := f.resp, resv := f.resv })

/-- A warm reset: the paddocks return to their committed gait where no emergency in force holds them at walk, and their domains follow
(R421 to R423, R435, R437). -/
def warmReset (b : Block) : Block :=
  if b.flt.fatal || b.pwr.held then b
  else
    let ps := loadedPads b
    let b := ps.foldl (fun b p => if (padGet b p).tamperStep then markTampered b p else b) b
    let b := ps.foldl (fun b p => padPut (padState b p .fenced) p (warmPad (padGet b p))) b
    let b := hostReset b true
    let b := (List.range 32).foldl (fun b p => calEnd b p 3 0 0) b
    let b := abortTests b
    let l := b.pair.held
    let b := (l.map (·.2)).foldl place (pairStops b)
    let b := warmOptics (warmFabric (warmFlt b))
    let b := secMod b (fun s => { s with held := none, waiting := [], challenge := none, cmd := none, upd := none })
    let b := hbmMod b (fun h => { h with spilling := [], recalling := false })
    let b := hostMod b (fun h => { h with vecs := [], busy := false, degraded := false, ideIo := false, ideCm := false })
    let b := pwrMod b (fun w => { w with ready := [], held := true, heads := [], hot := [], tests := [], restore := ps })
    protect (rampDomains { b with
      die := Block.reset.die, lnk := [], regs := warmRegs (fun _ => true) b.regs,
      sess := { b.sess with captured := [] }, mgmt := { b.mgmt with addr := none, latch := [] } })

/-- `PERST#` is asserted (R422). -/
def perstOn (b : Block) : Block := warmReset (pwrMod b (fun w => { w with perst := true }))

/-- `PERST#` is deasserted. -/
def perstOff (b : Block) : Block := tryStart (pwrMod b (fun w => { w with perst := false }))

/-- A write to `RESET_CTRL` (R424, R453, R507). -/
def resetCtrl (w : Word) (b : Block) : Block :=
  if !writeServed b || decide (fld w 24 8 ≠ 0x52) then b
  else if bit w 1 then coldReset b
  else if bit w 0 then tryStart (warmReset b)
  else b

/-! ### Power and the reference clock (R422, R429, R430, R522, R523) -/

/-- `VIN48` has been at least 40.0 V for 20 ms: cold reset. -/
def powerUp (b : Block) : Block :=
  if b.pwr.powered then b else let c := coldReset b; pwrMod c (fun w => { w with powered := true })

/-- `VIN48` is removed. -/
def powerDown (b : Block) : Block := let c := coldReset b; pwrMod c (fun w => { w with powered := false })

/-- Reference edges appear. -/
def refStart (b : Block) : Block := pwrMod b (fun w => { w with refOk := true })

/-- ROOT locks to the reference, and a held reset goes on. -/
def rootLock (b : Block) : Block :=
  if b.pwr.powered && b.pwr.refOk && !b.pwr.locked && !b.flt.fatal then tryStart (pwrMod b (fun w => { w with locked := true })) else b

/-- ROOT loses its lock: while `PERST#` is asserted it stops; otherwise the module enters the fatal state at once, in holdover (R430). -/
def rootFails (src : Nat) (b : Block) : Block :=
  if !b.pwr.locked then b
  else if b.pwr.perst then pwrMod b (fun w => { w with locked := false })
  else
    collect [] (raise (pwrMod b (fun w => { w with locked := false, holdover := true })) src fatal 0 0 0 0 .none)

/-- No reference edge has arrived for t_REFL. -/
def refLost (b : Block) : Block := rootFails 0x010 (pwrMod b (fun w => { w with refOk := false }))

/-- PLL lock is lost with the reference present. -/
def pllUnlock (b : Block) : Block := if b.pwr.refOk then rootFails 0x011 b else b

/-- Holdover ends: ROOT stops. -/
def holdoverEnd (b : Block) : Block := pwrMod b (fun w => { w with holdover := false })

/-! ### Readiness (R425 to R428, R513) -/

/-- Does the compute die run in this role (R394)? -/
def diePowered (b : Block) : Bool := decide (b.pair.role ≠ 2) && decide (b.pair.role ≠ 4)

/-- Do the prerequisites of a unit hold (R425)? -/
def canReady (b : Block) (f u : Nat) : Bool :=
  clocked b && !b.flt.fatal &&
  match f with
  | 0 => decide (u = 0) && !b.pwr.recovery
  | 1 => decide (u = 0)
  | 2 => decide (u < 8) && isReady b 0 0
  | 3 => decide (u < 4) && diePowered b
  | 4 => decide (u < 80) && diePowered b && allReady b 3 4
  | 5 => decide (u < 32) && isReady b 0 0 && (portLinks b u).any (fun l => decide ((lpGet b l).st = 2))
  | 6 => decide (u = 0) && isReady b 1 0 && b.fab.node.isSome && decide (b.fab.state = 2)
  | 7 => decide (u = 0) && pairOn b && (pairPort b).any (fun p => decide ((fpGet b p).st = 3)) && decide (b.pair.role ≠ 0)
  | 8 => decide (u = 0) && isReady b 0 0 && allReady b 2 8
  | _ => false

/-- At its start Swizen gives the ODL-18 its dynamic address (R312). -/
def sidebandStart (b : Block) : Block := emit (optMod b (fun o => { o with addressed := true })) (.sidebandDaa 0x30)

/-- A unit's prerequisites hold and it reports ready; enables that waited for Swizen take effect, and a master starts discovery
(R372, R428). -/
def unitReady (f u : Nat) (b : Block) : Block :=
  if canReady b f u && !isReady b f u then
    let b := setReady b f u true
    let b := if f = 0 then lateEnables (sidebandStart b) else b
    if f = 1 then maybeDiscover b else b
  else b

/-- A unit leaves ready. -/
def unitDown (f u : Nat) (b : Block) : Block := setReady b f u false

/-! ### Meanings -/

/-- `POWER_ON` (R522). -/
def execPowerOn (s : State) : Host.Outcome State Fault Refusal := onBlk powerUp s

/-- `POWER_REMOVED` (R523). -/
def execPowerRemoved (s : State) : Host.Outcome State Fault Refusal := onBlk powerDown s

/-- `RESET_CTRL_WARM` (R423): a write of `RESET_CTRL`. -/
def execResetCtrlWarm (w : Word) (s : State) : Host.Outcome State Fault Refusal := onBlk (resetCtrl w) s

/-- `RESET_CTRL_COLD` (R421): a write of `RESET_CTRL`. -/
def execResetCtrlCold (w : Word) (s : State) : Host.Outcome State Fault Refusal := onBlk (resetCtrl w) s

/-- `PERST_ASSERT` (R422). -/
def execPerstAssert (s : State) : Host.Outcome State Fault Refusal := onBlk perstOn s

/-- `PERST_DEASSERT` (R422). -/
def execPerstDeassert (s : State) : Host.Outcome State Fault Refusal := onBlk perstOff s

/-- `REFCLK_START` (R429). -/
def execRefclkStart (s : State) : Host.Outcome State Fault Refusal := onBlk refStart s

/-- `ROOT_LOCK` (R429). -/
def execRootLock (s : State) : Host.Outcome State Fault Refusal := onBlk rootLock s

/-- `REF_LOST` (R430). -/
def execRefLost (s : State) : Host.Outcome State Fault Refusal := onBlk refLost s

/-- `PLL_UNLOCK` (R430). -/
def execPllUnlock (s : State) : Host.Outcome State Fault Refusal := onBlk pllUnlock s

/-- `HOLDOVER_END` (R430). -/
def execHoldoverEnd (s : State) : Host.Outcome State Fault Refusal := onBlk holdoverEnd s

/-- `UNIT_READY` (R426). -/
def execUnitReady (f : Fin 9) (u : Nat) (s : State) : Host.Outcome State Fault Refusal := onBlk (unitReady f.val u) s

/-- `UNIT_NOT_READY` (R426). -/
def execUnitNotReady (f : Fin 9) (u : Nat) (s : State) : Host.Outcome State Fault Refusal := onBlk (unitDown f.val u) s

end Sys2Proof.Machine
end

