-- ==== Sys2Proof/Machine/BarRead.lean ====
section
/-! DEFINITION. What every register of BAR0 reads: its stored fields, and beside them the fields that reflect live state (R14 to
R22, R504, R505, and the register tables of every chapter). -/

namespace Sys2Proof.Machine

/-- The bit of a Bool. -/
def flag (lo : Nat) (v : Bool) : Word := at_ lo v.toNat

/-- A number in a field of `len` bits at `lo`, at its largest where it does not fit. -/
def sat (lo len v : Nat) : Word := at_ lo (min v (2 ^ len - 1))

/-- Word `i` of a list of bytes. -/
def wordAt (l : List Byte) (i : Nat) : Word := BitVec.ofNat 32 (leAt l (4 * i) 4)

/-- Half `i` of a 64-bit quantity. -/
def half (i v : Nat) : Word := BitVec.ofNat 32 (v / 2 ^ (32 * i))

/-- The bits that a predicate sets, of 32 from `from_`. -/
def bits32 (from_ : Nat) (f : Nat → Bool) : Word :=
  BitVec.ofNat 32 (((List.range 32).map (fun i => if f (from_ + i) then 2 ^ i else 0)).sum)

/-- The key under which the register at an offset is stored: the selected copy of a ring pair or of the equalisation table, and the
one `ODL_STAT` (R307, R339, R502). -/
def regKey (b : Block) (off : Nat) : Nat :=
  if 0x20004 ≤ off ∧ off ≤ 0x20030 then off + 2 ^ 22 * (regFld b 0x20000 0 10 + 1)
  else if off = 0x320018 then off + 2 ^ 22 * (regFld b 0x320014 0 6 + 1)
  else if 0x100000 ≤ off ∧ off < 0x180000 ∧ off % 0x10000 = 0x800 then 0x100800
  else off

/-! ### IDENT and READY (R40, R231, R511, R512) -/

/-- Units of a function (R425). -/
def unitCount (f : Nat) : Nat :=
  match f with
  | 2 => 8 | 3 => 4 | 4 => 80 | 5 => 32 | _ => 1

/-- `PADDOCK_STAT`. -/
def padStat (x : Pad) : Word :=
  let live := decide (x.st ≠ .free)
  let v := fun n => if live then n else 0
  at_ 0 x.st.code ||| at_ 3 (v x.col) ||| at_ 10 (v x.row) ||| at_ 16 (v x.env.width) ||| at_ 23 (v x.env.height) ||| at_ 29 (v x.gait)
    ||| flag 31 (live && x.env.split)

/-- `PADDOCK_IMG`. -/
def padImg (b : Block) (x : Pad) : Word :=
  if x.st = .free then 0
  else
    at_ 0 x.stage ||| flag 10 ((stageGet b x.stage).any (fun g => g.damaged)) ||| flag 11 x.tampered
      ||| at_ 12 (if x.env.split then x.peer else 0)

/-- Live fields of IDENT and READY. -/
def liveIdent (b : Block) (off : Nat) : Word :=
  if off = 0x40 then half 0 b.time
  else if off = 0x44 then half 1 b.time
  else if 0x100 ≤ off ∧ off < 0x240 then
    let r := tget (59, false) b.retired ((off - 0x100) / 4)
    at_ 0 r.1 ||| flag 6 r.2
  else if off = 0x10000 then at_ 0 (((List.range 9).map (fun f => if allReady b f (unitCount f) then 2 ^ f else 0)).sum)
  else if off = 0x10004 then at_ 0 (((List.range 9).map (fun f => if (List.range (unitCount f)).any (isReady b f) then 2 ^ f else 0)).sum)
  else if off = 0x10010 then bits32 0 (isReady b 2) &&& 0xFF
  else if off = 0x10014 then bits32 0 (isReady b 3) &&& 0xF
  else if off = 0x10018 then bits32 0 (isReady b 4)
  else if off = 0x1001C then bits32 32 (isReady b 4)
  else if off = 0x10020 then bits32 64 (isReady b 4) &&& 0xFFFF
  else if off = 0x10024 then bits32 0 (isReady b 5)
  else if off = 0x10034 ∨ off = 0x10038 then
    let f := regFld b 0x10030 0 4
    let u := regFld b 0x10030 4 7
    half ((off - 0x10034) / 4) (if f ≤ 8 ∧ u < unitCount f then tget 0 b.pwr.readyT (128 * f + u) else 0)
  else if 0x10400 ≤ off ∧ off < 0x10500 then padStat (padGet b ((off - 0x10400) / 4))
  else if 0x10500 ≤ off ∧ off < 0x10600 then padImg b (padGet b ((off - 0x10500) / 4))
  else 0

/-! ### HOSTIF (R273, R307) -/

/-- Live fields of HOSTIF; those of a ring pair are of the pair that `RING_SEL` selects. -/
def liveHostif (b : Block) (off : Nat) : Word :=
  let q := regFld b 0x20000 0 10
  let x := rpGet b q
  if off = 0x20030 then
    at_ 0 x.st ||| flag 4 x.cqFull ||| flag 5 (decide (x.st ≠ 0) && hasRq b q && decide (rqSize b q ≤ ahead x.rqTail x.rqHead))
  else if off = 0x20034 then half 0 x.sqHead
  else if off = 0x20038 then half 0 x.cqTail
  else if off = 0x2003C then half 0 x.rqTail
  else if off = 0x20200 then
    at_ 0 (if b.host.degraded then 8 else 16) ||| flag 5 b.host.degraded ||| flag 6 b.host.ideIo ||| flag 7 b.host.ideCm
      ||| flag 8 (!windowOff b)
  else if off = 0x20208 then flag 1 b.host.busy
  else if off = 0x2D004 then
    at_ 0 (b.sess.slots.filter (fun e => decide (e.2.st ≠ 0))).length ||| at_ 16 (b.sess.slots.filter (fun e => decide (e.2.st = 2))).length
  else if 0x2D100 ≤ off ∧ off < 0x2D200 then wordAt b.sess.captured ((off - 0x2D100) / 4)
  else 0

/-! ### CLOCK, GAIT and THERM (R207, R434, R453 to R455) -/

/-- The frequency of a source of CLKMON in MHz with a 100 MHz reference; 0 for none, and for the core clock of a free paddock (R27,
R434). -/
def monMHz (b : Block) (src pad : Nat) : Nat :=
  match src with
  | 1 => 100
  | 2 => 8400
  | 3 => 2100
  | 4 => 1050
  | 5 => 420
  | 6 =>
    let x := padGet b pad
    if x.st = .free then 0
    else
      match x.run with
      | 0 => 420 | 1 => 840 | 2 => 1200 | _ => 1400
  | 7 => 16800
  | _ => 0

/-- `CLKMON_CTRL.TOO_FAST`: the divided frequency exceeds 200 MHz. -/
def tooFast (b : Block) : Bool :=
  decide (200 * 2 ^ regFld b 0x30008 4 4 < monMHz b (regFld b 0x30008 0 3) (regFld b 0x30008 8 6))

/-- The CLKMON pin (R434): the source whose clock it gives, with its divider's exponent; none while it is held low. -/
def clkmonPin (b : Block) : Option (Nat × Nat) :=
  let s := regFld b 0x30008 0 3
  if monMHz b s (regFld b 0x30008 8 6) = 0 ∨ tooFast b then none else some (s, regFld b 0x30008 4 4)

/-- `GAIT_PAD`. -/
def gaitPad (b : Block) (x : Pad) : Word :=
  if x.st = .free then 0 else at_ 0 x.gait ||| at_ 2 x.target ||| at_ 4 x.run ||| at_ 6 (gaitHold b x)

/-- `THERM_VAL` of a sensor. -/
def thermVal (x : Sensor) : Word :=
  at_ 0 (twos 12 x.reads) ||| flag 12 x.broken ||| flag 13 x.masked ||| flag 14 (decide (736 ≤ x.temp))

/-- Live fields of CLOCK, GAIT and THERM. -/
def liveClock (b : Block) (off : Nat) : Word :=
  if off = 0x30000 then flag 0 b.pwr.locked ||| flag 1 b.pwr.refOk ||| flag 2 b.pwr.holdover
  else if off = 0x30004 then at_ 16 (4720 - ((loadedPads b).map (fun p => (padGet b p).area)).sum - testTeams b)
  else if off = 0x30008 then flag 31 (tooFast b)
  else if off = 0x30404 then at_ 0 (b.die.cores.filter (fun e => e.2.napping)).length
  else if off = 0x40004 then sat 0 16 (inUnits (committedSum b) 6400).toNat
  else if off = 0x40008 then at_ 0 (twos 24 (inUnits (headroom b) 6400))
  else if 0x40100 ≤ off ∧ off < 0x40200 then gaitPad b (padGet b ((off - 0x40100) / 4))
  else if 0x40200 ≤ off ∧ off < 0x40240 then
    let d := domGet b ((off - 0x40200) / 4)
    at_ 0 d.level ||| flag 2 d.ramping ||| sat 16 16 d.milliVolt
  else if off = 0x40300 then sat 0 16 b.pwr.vin ||| sat 16 16 b.pwr.iin
  else if off = 0x40304 then sat 0 16 (powerW b)
  else if off = 0x50004 then thermVal (sensorGet b (regFld b 0x50000 0 10))
  else if off = 0x50008 then thermHot b
  else if off = 0x50010 then
    flag 0 (decide (b.pwr.throttle ≠ [])) ||| at_ 8 (((List.range 5).map (fun i => if causeIn b (i + 1) then 2 ^ i else 0)).sum)
      ||| at_ 16 (b.pwr.sensors.filter (fun e => e.2.broken)).length
  else 0

/-! ### FAULT (R481) -/

/-- The numbers of the contained records whose window is running, oldest first. -/
def openRecs (b : Block) : List Nat := (b.flt.windows.map (fun w => w.num)).eraseDups

/-- Live fields of FAULT. -/
def liveFault (b : Block) (off : Nat) : Word :=
  let f := b.flt
  if off = 0x60004 then flag 0 f.fatal ||| flag 1 f.first.isSome
  else if 0x60010 ≤ off ∧ off < 0x60030 then
    (match f.first with
     | some r => wordAt (recBytes r) ((off - 0x60010) / 4)
     | none => 0)
  else if off = 0x60040 then BitVec.ofNat 32 f.newest
  else if 0x60050 ≤ off ∧ off < 0x60070 then
    (match f.log.find? (fun r => decide (r.num = (regGet b 0x60044).toNat)) with
     | some r => wordAt (recBytes r) ((off - 0x60050) / 4)
     | none => 0)
  else if off = 0x60088 then
    sat 0 8 (openRecs b).length ||| at_ 8 (match openRecs b with
      | n :: _ => n % 2 ^ 24
      | [] => 0)
  else if off = 0x600A8 then sat 0 32 (tget 0 f.counts (regFld b 0x600A4 0 13))
  else if off = 0x600C4 then flag 1 f.inj.isSome
  else if off = 0x60104 ∨ off = 0x60108 then
    bits32 (if off = 0x60104 then 0 else 32) (fun r => decide (r < 60) && f.failed.contains (60 * regFld b 0x60100 0 7 + r))
  else if off = 0x60200 then
    sat 0 8 ((List.range 128).filter (fun i => (flogIndex b i).isSome)).length
      ||| at_ 8 (match flogNewest b with
        | some (i, _) => i
        | none => 0)
  else if off = 0x60208 then flogWord b
  else 0

/-! ### SYNCDBG and MEM (R114, R211) -/

/-- `SYNCDBG_VALUE` of the selected counter. -/
def dbgValue (b : Block) : Word :=
  match pokeTarget b with
  | none => 0
  | some (k, c) =>
    at_ 0 (ctrGet b k c) ||| flag 24 (b.die.waiters.any (fun w => decide (w.team = k) && decide (w.ctr = c)))
      ||| (match padOf b k with
        | some p => at_ 25 1 ||| at_ 26 p
        | none => 0)

/-- `SYNCDBG_INIT` of the selected counter. -/
def dbgInit (b : Block) : Word :=
  match pokeTarget b with
  | none => 0
  | some (k, c) =>
    (match tget none b.die.ctrInit (512 * k + c) with
     | some n => at_ 0 n ||| at_ 24 1
     | none => 0)

/-- Live fields of SYNCDBG. -/
def liveSync (b : Block) (off : Nat) : Word :=
  let n := regFld b 0x70030 0 8
  let x := padGet b (regFld b 0x70030 8 6)
  if off = 0x70008 then dbgValue b
  else if off = 0x7000C then dbgInit b
  else if off = 0x70014 then at_ 1 (debugLevel b) ||| flag 3 (unlocked b)
  else if off = 0x70020 ∨ off = 0x70024 then bits32 (8 * (off - 0x70020)) (fun p => (padGet b p).tampered)
  else if off = 0x70034 then
    at_ 0 ((x.bar n).opened % 4) ||| flag 2 (decide (x.st ≠ .free) && decide (n < x.env.barrierCount)) ||| at_ 3 (x.bar n).need
  else if off = 0x70038 then at_ 0 (x.bar n).even
  else if off = 0x7003C then at_ 0 (x.bar n).odd
  else 0

/-- Does a read-back of spilled pages run: an admission waits for it (R109, R255)? -/
def readBackRuns (b : Block) : Bool :=
  b.host.pairs.any (fun e => e.2.reading.any (fun r => decide ((slotGet b r.slot).st = 3)))

/-- Live fields of MEM. -/
def liveMem (b : Block) (off : Nat) : Word :=
  if 0x80000 ≤ off ∧ off < 0x80020 then flag 0 (isReady b 2 ((off - 0x80000) / 4)) ||| flag 1 (b.pwr.held && !b.pwr.cold)
  else if off = 0x80040 then
    sat 0 18 (cleanSegs b).length ||| flag 31 (!b.hbm.zeroed)
  else if off = 0x80054 then sat 0 18 b.hbm.retired.length
  else if off = 0x8005C then
    (match b.hbm.retired[regFld b 0x80058 0 18]? with
     | some r => at_ 0 r.seg ||| flag 18 r.pending ||| at_ 19 r.cause
     | none => 0)
  else if off = 0x80210 then sat 0 21 b.hbm.spillUsed.length ||| flag 22 (readBackRuns b || b.hbm.recalling || decide (b.hbm.spilling ≠ []))
  else 0

/-! ### OEn and LINK (R339, R365, R366) -/

/-- State code of an engine (R339): 1 until a port has selected its lanes, then 2; 4 while a per-engine reset is in progress. -/
def engState (b : Block) (n : Nat) : Nat :=
  let e := engGet b n
  if !e.on then 0
  else if e.resetting then 4
  else if e.fenced then 3
  else if (engPorts n).any (fun p => decide ((opGet b p).phase = 2) || (portLinks b p).any (fun l => decide ((lpGet b l).txMap ≠ []))) then 2
  else 1

/-- Links of a routed port that are up. -/
def linksUp (b : Block) (p : Nat) : Nat := ((portLinks b p).filter (fun l => decide ((lpGet b l).st = 2))).length

/-- `OE_PORT` of a port. -/
def oePort (b : Block) (p : Nat) : Word :=
  let w := fun rx => if portRouted b p then linksUp b p else widthOf b p rx
  let s := fun rx => (waves.filter (fun k => decide ((laneGet b p rx k).st = 2))).length
  at_ 0 (w false) ||| at_ 5 (w true) ||| sat 10 2 (s false) ||| sat 12 2 (s true)
    ||| (match (opGet b p).cal with
      | some c => at_ 14 1 ||| at_ 15 c.wave
      | none => 0)

/-- `OE_PWR` of a wavelength of a laser fibre. -/
def oePwr (b : Block) (f k : Nat) : Word :=
  let l := laserGet b f k
  let power := match l.power with
    | some d => twos 16 d
    | none => if l.low then (Config.noTonePower (18 * f + k)).toNat else 0
  at_ 0 power ||| flag 16 l.pilot ||| flag 17 ((tget none b.opt.spares k).any (fun r => decide (r.fibre = f)))
    ||| flag 18 l.active

/-- `OE_LANE` of a lane. -/
def oeLane (x : Lane) : Word :=
  at_ 0 x.st ||| at_ 3 (if x.st = 1 ∨ x.st = 3 then x.pos else 0) ||| flag 7 x.locked ||| sat 8 8 x.start ||| sat 16 8 x.live
    ||| sat 24 2 x.mislocks

/-- Live fields of the block of engine `n`, by the offset in the block. -/
def liveOe (b : Block) (n off : Nat) : Word :=
  if off = 0x004 then
    let up := ((List.range 4).map (fun j =>
      if (portLinks b (4 * n + j)).any (fun l => decide ((lpGet b l).st = 2)) then 2 ^ j else 0)).sum
    let locked := ((List.range 576).filter (fun i => (tget LoopS.init b.opt.loops (576 * n + i)).locked)).length
    at_ 0 (engState b n) ||| at_ 5 up ||| at_ 16 locked
  else if 0x010 ≤ off ∧ off < 0x020 then oePort b (4 * n + (off - 0x010) / 4)
  else if 0x040 ≤ off ∧ off < 0x0D0 then
    let i := (off - 0x040) / 4
    oePwr b (2 * n + i / 18) (i % 18)
  else if 0x100 ≤ off ∧ off < 0x340 then
    let i := (off - 0x100) / 4
    oeLane (laneGet b (4 * n + i / 36) (decide (18 ≤ i % 36)) (i % 18))
  else if 0x400 ≤ off ∧ off < 0x520 then
    let i := (off - 0x400) / 4
    sat 0 12 (laneGet b (4 * n + i / 18) true (i % 18)).fom.toNat
  else if off = 0x604 then
    let s := regGet b (engBase n + 0x600)
    let k := fld s 2 5
    let l := if k < 18 then tget LoopS.init b.opt.loops (576 * n + 144 * fld s 0 2 + 8 * k + fld s 7 3) else LoopS.init
    sat 0 16 l.drive ||| flag 16 l.locked ||| flag 17 l.atLimit
  else if off = 0x800 then flag 0 b.opt.present ||| at_ 16 (if b.opt.addressed then 0x30 else 0)
  else if off = 0x900 then
    let e := engGet b n
    at_ 0 e.down.length ||| at_ 8 e.up.length ||| flag 16 e.trained
  else if off = 0x908 then
    let s := regGet b (engBase n + 0x904)
    (match (if bit s 4 then (engGet b n).up else (engGet b n).down).find? (fun e => e.1 = fld s 0 4) with
     | some e => at_ 0 e.2 ||| at_ 9 1
     | none => 0)
  else 0

/-- The link that the LINK block of a port shows: its own, or the first routed link that is not down (log 86). -/
def shownLink (b : Block) (p : Nat) : Nat :=
  if portRouted b p then ((portLinks b p).find? (fun l => decide ((lpGet b l).st ≠ 0))).getD (linkNo p 0) else p

/-- Live fields of the LINK block of port `p`, by the offset in the block. -/
def liveLink (b : Block) (p off : Nat) : Word :=
  let x := lpGet b (shownLink b p)
  if off = 0x004 then
    at_ 0 x.st ||| flag 2 x.rateRule ||| flag 3 x.coalesced ||| flag 4 x.mismatch ||| flag 5 x.windowLimited ||| at_ 6 x.txSleep
      ||| at_ 8 x.rxSleep ||| flag 10 (decide (0 < resvLoad b p))
  else if off = 0x008 then sat 0 16 x.rtt
  else if off = 0x00C then at_ 0 x.txNext ||| at_ 16 x.rxNext
  else if off = 0x010 then sat 0 10 x.credReq ||| sat 16 10 x.credRsp
  else 0

/-! ### FABRIC, PAIR, STORE and SECURE (R390, R419, R502, R503) -/

/-- The neighbour fields of a port or of a routed link. -/
def nbrWord (x : FPort) : Word := at_ 0 x.st ||| at_ 3 x.node ||| flag 15 x.valid ||| at_ 16 x.port

/-- `FABRIC_PORT` of a port (R371). -/
def fabPort (b : Block) (p : Nat) : Word :=
  (if portRouted b p then at_ 0 (portFabric b p) else nbrWord (fpGet b p))
    ||| sat 21 11 (resvLoad b p)

/-- Live fields of FABRIC. -/
def liveFabric (b : Block) (off : Nat) : Word :=
  let f := b.fab
  if off = 0x300004 then
    (match f.node with
     | some n => at_ 0 n ||| at_ 12 1
     | none => 0)
  else if off = 0x30000C then at_ 0 f.state ||| sat 3 13 f.act.modules ||| at_ 16 (f.act.epoch % 2 ^ 16)
  else if 0x300100 ≤ off ∧ off < 0x300180 then fabPort b ((off - 0x300100) / 4)
  else if off = 0x300204 then tget 0 f.act.dest (regFld b 0x300200 0 12)
  else if off = 0x30020C then
    let s := regGet b 0x300208
    if fld s 1 6 ≤ 32 then turnMask b (bit s 0) (fld s 1 6) else 0
  else if off = 0x300300 then at_ 0 f.flows.length ||| sat 16 14 f.resp.length
  else if off = 0x300404 then
    let s := regGet b 0x300400
    let p := fld s 0 5
    let x := rlGet b p (fld s 5 4)
    if portRouted b p then nbrWord x ||| at_ 21 x.wave ||| at_ 25 1 else 0
  else if off = 0x30040C then
    let s := regGet b 0x300408
    BitVec.zeroExtend 32 (tget 0 f.act.rlink (4096 * fld s 0 5 + fld s 5 12))
  else 0

/-- Is a paddock shown as covered (R395)?  A standby shows its claims.  A protected active has an armed standby, which covers every
paddock that can be covered; otherwise how the active knows is not stated (log 25). -/
def coverBit (b : Block) (p : Nat) : Bool :=
  let x := padGet b p
  if b.pair.role = 2 ∨ b.pair.role = 3 then b.pair.cover.any (fun c => decide (c.1 = p))
  else if b.pair.role = 1 ∧ x.st ≠ .free ∧ !x.env.split then isProtected b || Config.coverShown p b.freeCtr
  else false

/-- Live fields of PAIR. -/
def livePair (b : Block) (off : Nat) : Word :=
  let x := b.pair
  if off = 0x310008 then
    at_ 0 x.role ||| flag 3 (gateOpen b) ||| flag 4 x.reads ||| flag 5 (!x.broken) ||| flag 6 x.wireOk ||| flag 7 x.linkOk
      ||| flag 8 (if x.role = 2 then x.armed else isProtected b) ||| flag 10 x.resync ||| flag 11 x.mismatch
  else if off = 0x31000C then half 0 x.epoch
  else if off = 0x310010 then half 0 x.acked
  else if off = 0x310014 then half 1 x.acked
  else if off = 0x310018 then bits32 0 (coverBit b)
  else if off = 0x31001C then bits32 32 (coverBit b)
  else 0

/-- Live fields of STORE and SECURE. -/
def liveStore (b : Block) (off : Nat) : Word :=
  let s := b.sec
  let gen := match bankInForce b with
    | some k => bankGen b k
    | none => 0
  if off = 0x320004 then
    flag 0 s.cmd.isSome ||| flag 1 (decide (bankInForce b = some 1)) ||| flag 2 (bankValid b 0) ||| flag 3 (bankValid b 1)
      ||| flag 4 s.held.isSome
  else if off = 0x320008 then half 0 gen
  else if off = 0x32000C then half 1 gen
  else if off = 0x320020 then at_ 0 (s.next % 2 ^ 30) ||| flag 30 s.usable
  else if off = 0x330048 then flag 2 (decide (2 ^ 30 ≤ s.next))
  else if off = 0x330070 then flag 0 s.upd.isSome
  else 0

/-! ### Blocks and served states (R504, R505, R516) -/

/-- Live fields of the register at an offset. -/
def liveRead (b : Block) (off : Nat) : Word :=
  if off < 0x20000 then liveIdent b off
  else if off < 0x30000 then liveHostif b off
  else if off < 0x60000 then liveClock b off
  else if off < 0x70000 then liveFault b off
  else if off < 0x80000 then liveSync b off
  else if off < 0x90000 then liveMem b off
  else if 0x100000 ≤ off ∧ off < 0x180000 then liveOe b ((off - 0x100000) / 0x10000) (off % 0x10000)
  else if 0x200000 ≤ off ∧ off < 0x220000 then liveLink b ((off - 0x200000) / 0x1000) (off % 0x1000)
  else if 0x300000 ≤ off ∧ off < 0x310000 then liveFabric b off
  else if 0x310000 ≤ off ∧ off < 0x320000 then livePair b off
  else if 0x320000 ≤ off ∧ off < 0x340000 then liveStore b off
  else 0

/-- What the register at an aligned offset reads; an offset that no chapter defines reads 0 (R15).  SYNCDBG reads 0 where the debug
level does not permit access (R208). -/
def bar0Read (b : Block) (off : Nat) : Word :=
  if 2 ^ 22 ≤ off then 0
  else if 0x70000 ≤ off ∧ off < 0x80000 ∧ !debugOpen b then 0
  else regGet b (regKey b off) ||| liveRead b off

/-- What a read of a block that is not served returns; none where it is served (R505). -/
def notServed (b : Block) (off : Nat) : Option Word :=
  let k := off / 0x10000
  if b.flt.fatal then
    (if k = 0 ∨ k = 1 ∨ k = 3 ∨ k = 5 ∨ k = 6 then none else some 0xFFFFFFFF)
  else if b.pwr.recovery then
    (if k = 0 ∨ k = 1 ∨ k = 0x32 ∨ k = 0x33 then none else some 0)
  else none

/-- The registers that the management target serves (R516). -/
def mgmtServed (off : Nat) : Bool :=
  let k := off / 0x10000
  decide (k = 0) || decide (k = 1) || decide (k = 5) || decide (k = 6) || decide (off = 0x40300) || decide (off = 0x40304)
    || decide (off = 0x40308)

/-! ### Reads with effects (R14, R17, R464, R481) -/

/-- The lower registers of quantities wider than 32 bits (R17). -/
def wideLow (off : Nat) : Bool :=
  [0x10, 0x2C, 0x40, 0x10034, 0x20010, 0x20018, 0x20020, 0x20028, 0x20108, 0x20110, 0x60104, 0x70020, 0x80200, 0x310010, 0x310018,
   0x320008, 0x330060].contains off
    || (decide (0x200000 ≤ off) && decide (off < 0x220000) && decide (off % 0x1000 = 0x34))

/-- Changes the latches of wide quantities. -/
def latchPut (b : Block) (key : Nat) (v : Option Word) : Block :=
  { b with mgmt := { b.mgmt with latch := tput none b.mgmt.latch key v } }

/-- One read of a served register: its value, and what the read does. -/
def readWord (b : Block) (off : Nat) : Block × Word :=
  let v := bar0Read b off
  if wideLow off then (latchPut b (regKey b (off + 4)) (some (bar0Read b (off + 4))), v)
  else if wideLow (off - 4) ∧ 4 ≤ off then
    (match tget none b.mgmt.latch (regKey b off) with
     | some w => (latchPut b (regKey b off) none, w)
     | none => (b, v))
  else if off = 0x60208 then (regSet b 0x60204 7 10 ((regFld b 0x60204 7 10 + 1) % 1024), v)
  else if 0x60050 ≤ off ∧ off < 0x60070 then
    let n := (regGet b 0x60044).toNat
    (if b.flt.log.any (fun r => decide (r.num = n)) && !b.flt.seen.contains n then fltMod b (fun f => { f with seen := f.seen ++ [n] }) else b, v)
  else (b, v)

/-- Reads `k` words upward from an aligned offset, each once, lower address first (R14). -/
def readWords (serve : Nat → Option Word) : Nat → Nat → Block → Block × List Byte
  | 0, _, b => (b, [])
  | k + 1, off, b =>
    let r := match serve off with
      | some v => (b, v)
      | none => readWord b off
    let s := readWords serve k (off + 4) r.1
    (s.1, bytesOf 4 r.2.toNat ++ s.2)

/-- A read of `n` bytes at any offset: the addressed bytes of each word that it touches (R14). -/
def readBytes (serve : Nat → Option Word) (b : Block) (off n : Nat) : Block × List Byte :=
  let r := readWords serve (cdiv (off % 4 + n) 4) (off / 4 * 4) b
  (r.1, (r.2.drop (off % 4)).take n)

/-- A host read of `n` bytes of BAR0 or BAR2: CXL is ready (R277, R505). -/
def hostRead (bar2 : Bool) (off n : Nat) (b : Block) : Block :=
  if isReady b 1 0 then
    let r := readBytes (fun o => if bar2 then some (bar2Read b o) else notServed b o) b off n
    emit r.1 (.regRead bar2 off r.2)
  else b

/-- A read by the management target: it is served while ROOT runs, in every state (R516). -/
def mgmtRead (off : Nat) (b : Block) : Block :=
  if rootRuns b then
    let r := readBytes (fun o => if mgmtServed o then none else some 0) b off 4
    emit r.1 (.mi3cRead off r.2)
  else b

/-- Dynamic address assignment (R516). -/
def entdaa (a : BitVec 7) (b : Block) : Block := if rootRuns b then { b with mgmt := { b.mgmt with addr := some a } } else b

/-! ### Meanings -/

/-- `FAULT_FLOG_DATA_READ` (R481). -/
def execFaultFlogDataRead (s : State) : Host.Outcome State Fault Refusal := onBlk (hostRead false 0x60208 4) s

/-- `WIDE_REGISTER_LOW_READ` (R17): a read of any width and alignment, with what that read does (R14). -/
def execWideRegisterLowRead (off : BarSpan) (s : State) : Host.Outcome State Fault Refusal :=
  onBlk (hostRead off.bar2 off.off off.bytes) s

/-- `MI3C_REGISTER_READ` (R516). -/
def execMi3cRegisterRead (off : Nat) (s : State) : Host.Outcome State Fault Refusal := onBlk (mgmtRead off) s

/-- `MI3C_ENTDAA` (R516). -/
def execMi3cEntdaa (addr : BitVec 7) (s : State) : Host.Outcome State Fault Refusal := onBlk (entdaa addr) s

end Sys2Proof.Machine
end

