-- ==== Sys2Proof/Machine/BarWrite.lean ====
section
/-! DEFINITION. A write to BAR0: each word that it covers takes effect by the access types of its fields, or performs the action of
its register (R14 to R19, R302, R472, R505 to R507). -/

namespace Sys2Proof.Machine

/-- Is a write to a stored field applied (R505, R507)?  In recovery only STORE and SECURE take writes. -/
def storeServed (b : Block) (off : Nat) : Bool :=
  if 0x320000 ≤ off ∧ off < 0x340000 then isReady b 1 0 && !b.flt.fatal else writeServed b

/-- Are the fields of a register closed to writes: a ring pair's layout unless the pair is disabled (R302), the spill list while the
module owns it (R111), the injection registers where debug is closed (R472)? -/
def writeClosed (b : Block) (off : Nat) : Bool :=
  if 0x20008 ≤ off ∧ off ≤ 0x2002C then decide ((rpGet b (regFld b 0x20000 0 10)).st ≠ 0)
  else if 0x80200 ≤ off ∧ off ≤ 0x80208 then bit (regGet b 0x8020C) 0 || decide (b.hbm.spillUsed ≠ [])
  else if off = 0x600C0 ∨ (0x600D0 ≤ off ∧ off ≤ 0x600DC) then !debugOpen b
  else false

/-- A write of fields that are only stored; a stale latch of the register is dropped (R17, R18, R506). -/
def plainWrite (off : Nat) (w : Word) (b : Block) : Block :=
  if storeServed b off && !writeClosed b off then
    let k := regKey b off
    latchPut (regStore b (k % 2 ^ 22) k w) k none
  else b

/-- The bundle that a firmware update reads from host memory, where no command supplies it (R489, log 23). -/
def hostBundle (b : Block) : List Byte := (List.range (regFld b 0x330068 0 24)).map (fun i => Config.hostByte i b.freeCtr)

/-- Draws a free value, where an action reads host memory that no command supplies. -/
def drawn (b : Block) : Block := { b with freeCtr := b.freeCtr + 1 }

/-- A write of one whole word: the action of its register, or its stored fields. -/
def barWrite (off : Nat) (w : Word) (b : Block) : Block :=
  if 2 ^ 22 ≤ off then b
  else if 0x100000 ≤ off ∧ off < 0x180000 ∧ off % 0x10000 = 0 then oeCtrl ((off - 0x100000) / 0x10000) w b
  else if 0x200000 ≤ off ∧ off < 0x220000 ∧ off % 0x1000 = 0x40 then linkCtrl ((off - 0x200000) / 0x1000) w b
  else
    match off with
    | 0x20004 => ringCtrl w b
    | 0x20100 => evtCtrl w b
    | 0x20208 => hostifReset w b
    | 0x2C100 => paceApply w b
    | 0x2D000 => sessSel w b
    | 0x3000C => resetCtrl w b
    | 0x40000 => gaitModuleW w b
    | 0x5000C => thermMask w b
    | 0x60030 => firstClr w b
    | 0x60084 => faultAck w b
    | 0x600C4 => injArm w b
    | 0x70004 => resolveVirt w b
    | 0x70010 => poke w b
    | 0x80050 => retireAdd w b
    | 0x8020C => drawn (spillCtrl w (hostList b) ((poolPages b).map some) b)
    | 0x300000 => fabricCtrl w b
    | 0x310000 => pairCtrl w b
    | 0x310024 => pairCmd w b
    | 0x320000 => storeCtrl w b
    | 0x33006C => drawn (fwuCtrl w (hostBundle b) b)
    | _ => plainWrite off w b

/-- A write of any width and alignment: it takes effect on each word whose four bytes it covers, lower address first (R14). -/
def writeBytes (write : Nat → Word → Block → Block) (off : Nat) (data : List Byte) (b : Block) : Block :=
  let skip := (4 - off % 4) % 4
  (List.range ((data.length - skip) / 4)).foldl (fun b i => write (off + skip + 4 * i) (wordAt (data.drop skip) i) b) b

/-- A host write to BAR2: the MSI-X table; the pending bits are read-only (R277). -/
def bar2Write (off : Nat) (w : Word) (b : Block) : Block := if isReady b 1 0 then tableWrite off w b else b

/-! ### Meanings -/

/-- `REGISTER_WRITE` (R18). -/
def execRegisterWrite (off : BarPlace) (data : List Byte) (s : State) : Host.Outcome State Fault Refusal :=
  onBlk (writeBytes (if off.bar2 then bar2Write else barWrite) off.off data) s

end Sys2Proof.Machine
end

