-- ==== Sys2Proof/Machine/Branch.lean ====
section
/-! DEFINITION. The branch and jump instructions (R147, R152). -/

namespace Sys2Proof.Machine

/-- A conditional branch: `D` and `MOD` are 0; taken, control goes to PC + 8 × `IMM`, signed (R152). -/
def branch (cond : Word → Word → Bool) (t : Thr) (x : Fields) (b : Block) : Block :=
  issue b (thrKey t) [] (decide (x.d = 0) && decide (x.mod = 0)) (fun b =>
    let h := thrGet b (thrKey t)
    if cond (h.rs x.a) (h.rs x.b) then jump b (thrKey t) (h.pc + 8 * x.imm) id
    else advance b (thrKey t))

/-- Condition of `BEQ` (R152). -/
def condBeq (a b : Word) : Bool := decide (a = b)

/-- `BEQ` (R152). -/
def execBeq (t : Thr) (x : Fields) (s : State) : Host.Outcome State Fault Refusal :=
  onCore t (.beq t x) (branch condBeq t x) s

/-- Condition of `BNE` (R152). -/
def condBne (a b : Word) : Bool := decide (a ≠ b)

/-- `BNE` (R152). -/
def execBne (t : Thr) (x : Fields) (s : State) : Host.Outcome State Fault Refusal :=
  onCore t (.bne t x) (branch condBne t x) s

/-- Condition of `BLT` (R152). -/
def condBlt (a b : Word) : Bool := a.slt b

/-- `BLT` (R152). -/
def execBlt (t : Thr) (x : Fields) (s : State) : Host.Outcome State Fault Refusal :=
  onCore t (.blt t x) (branch condBlt t x) s

/-- Condition of `BGE` (R152). -/
def condBge (a b : Word) : Bool := !a.slt b

/-- `BGE` (R152). -/
def execBge (t : Thr) (x : Fields) (s : State) : Host.Outcome State Fault Refusal :=
  onCore t (.bge t x) (branch condBge t x) s

/-- Condition of `BLTU` (R152). -/
def condBltu (a b : Word) : Bool := a.ult b

/-- `BLTU` (R152). -/
def execBltu (t : Thr) (x : Fields) (s : State) : Host.Outcome State Fault Refusal :=
  onCore t (.bltu t x) (branch condBltu t x) s

/-- Condition of `BGEU` (R152). -/
def condBgeu (a b : Word) : Bool := !a.ult b

/-- `BGEU` (R152). -/
def execBgeu (t : Thr) (x : Fields) (s : State) : Host.Outcome State Fault Refusal :=
  onCore t (.bgeu t x) (branch condBgeu t x) s

/-- `JAL` links PC + 8 and goes to PC + 8 × `IMM`, signed; `A`, `B` and `MOD` are 0 (R152). -/
def jalOp (t : Thr) (x : Fields) (b : Block) : Block :=
  issue b (thrKey t) [] (decide (x.a = 0) && decide (x.b = 0) && decide (x.mod = 0)) (fun b =>
    let h := thrGet b (thrKey t)
    jump b (thrKey t) (h.pc + 8 * x.imm) (fun g => g.ws x.d (h.pc + 8)))

/-- `JALR` links PC + 8 and goes to sA + `IMM`, sA read first; `B` and `MOD` are 0 (R152). -/
def jalrOp (t : Thr) (x : Fields) (b : Block) : Block :=
  issue b (thrKey t) [] (decide (x.b = 0) && decide (x.mod = 0)) (fun b =>
    let h := thrGet b (thrKey t)
    jump b (thrKey t) (h.rs x.a + x.imm) (fun g => g.ws x.d (h.pc + 8)))

/-- `JAL` (R152). -/
def execJal (t : Thr) (x : Fields) (s : State) : Host.Outcome State Fault Refusal :=
  onCore t (.jal t x) (jalOp t x) s

/-- `JALR` (R152). -/
def execJalr (t : Thr) (x : Fields) (s : State) : Host.Outcome State Fault Refusal :=
  onCore t (.jalr t x) (jalrOp t x) s

end Sys2Proof.Machine
end

