-- ==== Sys2Proof/Machine/Cistern.lean ====
section
/-! DEFINITION. The cistern instructions `LD`, `ST`, `LDV`, `STV` and `STRM` (R73, R75, R79, R153,
R154). -/

namespace Sys2Proof.Machine

/-- Reads `n` bytes at `a` of the issuing core and hands them on; traps and stalls as R73, R81. -/
def loadBytes (b : Block) (t : Thr) (a n : Nat) (k : Block → Nat → Block) : Block :=
  if inLine a n then
    match portRead b (coreKey t.core) (a / 64) with
    | (b, some v) => k b (fld v (8 * (a % 64)) (8 * n))
    | (b, none) => stall b (thrKey t)
  else trapNow b (thrKey t) .cisternRange (BitVec.ofNat 32 a)

/-- Stores bytes at `a` of the issuing core (R73, R75, R79). -/
def storeBytes (b : Block) (t : Thr) (a : Nat) (data : List Byte) : Block :=
  let ck := coreKey t.core
  if inLine a data.length then
    if a / 64 < (coreGet b ck).wB then trapNow b (thrKey t) .cisternProtect (BitVec.ofNat 32 a)
    else
      match portStore b ck a data with
      | (b, true) => advance b (thrKey t)
      | (b, false) => stall b (thrKey t)
  else trapNow b (thrKey t) .cisternRange (BitVec.ofNat 32 a)

/-- `LD`: size in `MOD`[1:0], sign extension in `MOD`[2] (R153). -/
def ldOp (t : Thr) (x : Fields) (b : Block) : Block :=
  issue b (thrKey t) [] (decide (x.b = 0) && decide (fld x.mod 0 2 ≠ 3) && zeros x.mod 3) (fun b =>
    let n := 2 ^ fld x.mod 0 2
    loadBytes b t (effAddr (thrGet b (thrKey t)) x) n (fun b v =>
      finish b (thrKey t) (fun h =>
        h.ws x.d (if bit x.mod 2 then BitVec.ofInt 32 (signed (8 * n) v) else BitVec.ofNat 32 v))))

/-- `ST`: the low bytes of sB (R153). -/
def stOp (t : Thr) (x : Fields) (b : Block) : Block :=
  issue b (thrKey t) [] (decide (x.d = 0) && decide (fld x.mod 0 2 ≠ 3) && zeros x.mod 2) (fun b =>
    let h := thrGet b (thrKey t)
    storeBytes b t (effAddr h x) (bytesOf (2 ^ fld x.mod 0 2) (h.rs x.b).toNat))

/-- `LDV`: 1 to 64 bytes, vD's other bytes 0 (R153). -/
def ldvOp (t : Thr) (x : Fields) (b : Block) : Block :=
  issue b (thrKey t) [x.d.toNat] (decide (x.b = 0) && zeros x.mod 6 && isV x.d) (fun b =>
    loadBytes b t (effAddr (thrGet b (thrKey t)) x) (fld x.mod 0 6 + 1) (fun b v =>
      advance (coreMod b (coreKey t.core) (fun c => c.wv x.d.toNat (BitVec.ofNat 512 v))) (thrKey t)))

/-- `STV`: bytes 0 to length - 1 of vB (R153). -/
def stvOp (t : Thr) (x : Fields) (b : Block) : Block :=
  issue b (thrKey t) [x.b.toNat] (decide (x.d = 0) && zeros x.mod 6 && isV x.b) (fun b =>
    storeBytes b t (effAddr (thrGet b (thrKey t)) x)
      ((lineBytes ((coreGet b (coreKey t.core)).rv x.b.toNat)).take (fld x.mod 0 6 + 1)))

/-- `STRM` sets both pointers, discards what the stream holds, and reads ahead (R154). -/
def strmOp (t : Thr) (x : Fields) (b : Block) : Block :=
  issue b (thrKey t) [] (decide (x.d = 0) && decide (x.mod = 0)) (fun b =>
    let h := thrGet b (thrKey t)
    let r := fillStream b (coreKey t.core) ⟨effAddr h x, fld (h.rs x.b) 0 16, [], []⟩
    finish r.1 (thrKey t) (fun h => { h with stream := r.2 }))

/-- `LD` (R153). -/
def execLd (t : Thr) (x : Fields) (s : State) : Host.Outcome State Fault Refusal := onCore t (.ld t x) (ldOp t x) s

/-- `ST` (R153). -/
def execSt (t : Thr) (x : Fields) (s : State) : Host.Outcome State Fault Refusal := onCore t (.st t x) (stOp t x) s

/-- `LDV` (R153). -/
def execLdv (t : Thr) (x : Fields) (s : State) : Host.Outcome State Fault Refusal := onCore t (.ldv t x) (ldvOp t x) s

/-- `STV` (R153). -/
def execStv (t : Thr) (x : Fields) (s : State) : Host.Outcome State Fault Refusal := onCore t (.stv t x) (stvOp t x) s

/-- `STRM` (R154). -/
def execStrm (t : Thr) (x : Fields) (s : State) : Host.Outcome State Fault Refusal := onCore t (.strm t x) (strmOp t x) s

end Sys2Proof.Machine
end

