-- ==== Sys2Proof/Machine/Convert.lean ====
section
/-! DEFINITION. The conversions `CVT` and `CVTMX` (R116, R134 to R139, R158, R159). -/

namespace Sys2Proof.Machine

/-- The rounding that `MOD`[5:4] selects: 0 nearest, 1 toward zero, 2 stochastic with its draw (R134). -/
def cvtRnd (m d : Nat) : Rnd :=
  match m with
  | 0 => .nearest
  | 1 => .zero
  | _ => .stoch d

/-- One element converted (R138). -/
def cvtElem (c : FmtCode) (rnd : Rnd) (ovf : Bool) (v : Val) : Nat × Flags :=
  match c with
  | .int8 => roundInt8 rnd v
  | _ => roundVal c.layout rnd ovf v

/-- The draws of an instruction that converts `n` elements: one each where it rounds stochastically
(R135). -/
def cvtDraws (m n : Nat) (r : CoreS) : CoreS × List Nat :=
  if m = 2 then draws n r else (r, List.replicate n 0)

/-- Bits of a vector above the elements of a format: FP6 results have zeros there (R120). -/
def padVec (c : FmtCode) (v : Line) : Line := BitVec.ofNat 512 (fld v 0 (c.width * c.perReg))

/-- Writes converted elements from element `o` on. -/
def putElems (c : FmtCode) (v : Line) (o : Nat) : List Nat → Line
  | [] => padVec c v
  | x :: r => putElems c (setElem v c.width o x) (o + 1) r

/-- The source value of an element under `CVT`: scaled by a named register's code (R158). -/
def cvtSource (c : FmtCode) (scale : Option Nat) (code : Nat) : Val :=
  match scale with
  | some k => scaled (elemVal c true code) k
  | none => elemVal c false code

/-- `CVT` (R158).  `PART` out of its range is `ILLEGAL` (DESIGN CHOICE, log 119: R158 calls it undefined). -/
def cvtOp (t : Thr) (x : Fields) (b : Block) : Block :=
  let cs := (fmtOf (fld x.mod 0 4)).getD .fp32
  let cd := (fmtOf (fld x.imm 0 4)).getD .fp32
  let n := min cs.perReg cd.perReg
  let part := fld x.imm 4 4
  issue b (thrKey t) [x.d.toNat, x.a.toNat]
    ((fmtOf (fld x.mod 0 4)).isSome && (fmtOf (fld x.imm 0 4)).isSome && decide (fld x.mod 4 2 ≠ 3)
      && zeros x.mod 7 && zeros x.imm 13 && decide (part < max cs.perReg cd.perReg / n)
      && (cs.isMx || decide (fld x.imm 8 5 = 0)) && decide (x.b = 0) && isV x.d && isV x.a) (fun b =>
    let h := thrGet b (thrKey t)
    let sr := fld x.imm 8 5
    let scale := if sr = 0 then none else some (fld (h.rs (BitVec.ofNat 5 sr)) 0 8)
    let d := cvtDraws (fld x.mod 4 2) n (coreGet b (coreKey t.core))
    let v := d.1.rv x.a.toNat
    let so := if cd.perReg < cs.perReg then part * n else 0
    let po := if cs.perReg < cd.perReg then part * n else 0
    let res := (List.range n).map (fun i =>
      cvtElem cd (cvtRnd (fld x.mod 4 2) (d.2.getD i 0)) (bit x.mod 6)
        (cvtSource cs scale (elem v cs.width (so + i))))
    let old := if cs.perReg < cd.perReg then d.1.rv x.d.toNat else 0
    finish (corePut b (coreKey t.core) (d.1.wv x.d.toNat (putElems cd old po (res.map (·.1)))))
      (thrKey t) (fun h => h.flag (allFlags res)))

/-- The 32 inputs of `CVTMX` (R159). -/
def mxInputs (c : FmtCode) (r : CoreS) (a : Nat) : List Val :=
  let one := fun v => (List.range c.perReg).map (fun i => c.layout.decode (elem v c.width i))
  match c with
  | .fp32 => one (r.rv a) ++ one (r.rv (a + 1))
  | _ => one (r.rv a)

/-- The 32 converted elements of a block of scale code `k` (R139). -/
def mxElems (cd : FmtCode) (m : Nat) (ovf : Bool) (k : Nat) (xs : List Val) (ds : List Nat) :
    List (Nat × Flags) :=
  (xs.zip ds).map (fun e =>
    if k = 0xFF then
      match e.1 with
      | .nan => (0, { Flags.none with nv := true })
      | .inf _ => (0, { Flags.none with of := true })
      | _ => (0, Flags.none)
    else cvtElem cd (cvtRnd m e.2) ovf (e.1.scale (127 - (k : Int) + (if cd = .int8 then 6 else 0))))

/-- `CVTMX` (R159).  `PART` out of its range is `ILLEGAL`, as for `CVT` (DESIGN CHOICE, log 119). -/
def cvtmxOp (t : Thr) (x : Fields) (b : Block) : Block :=
  let cs := (fmtOf (fld x.mod 0 4)).getD .fp32
  let cd := (fmtOf (fld x.imm 0 4)).getD .fp32
  let part := fld x.imm 4 4
  issue b (thrKey t) ([x.d.toNat, x.a.toNat] ++ (if cs = .fp32 then [x.a.toNat + 1] else []))
    ((fmtOf (fld x.mod 0 4)).isSome && (fmtOf (fld x.imm 0 4)).isSome && !cs.isMx && cd.isMx
      && decide (fld x.mod 4 2 ≠ 3) && zeros x.mod 7 && zeros x.imm 8
      && (decide (cs ≠ .fp32) || decide (x.a.toNat % 2 = 0)) && decide (part < cd.perReg / 32)
      && isV x.d && isV x.a) (fun b =>
    let d := cvtDraws (fld x.mod 4 2) 32 (coreGet b (coreKey t.core))
    let xs := mxInputs cs d.1 x.a.toNat
    let k := mxScale xs cd.emax
    let res := mxElems cd (fld x.mod 4 2) (bit x.mod 6) k xs d.2
    finish (corePut b (coreKey t.core)
        (d.1.wv x.d.toNat (putElems cd (d.1.rv x.d.toNat) (32 * part) (res.map (·.1)))))
      (thrKey t) (fun h => (h.ws x.b (setFld (h.rs x.b) (8 * part) 8 k)).flag (allFlags res)))

/-- `CVT` (R158). -/
def execCvt (t : Thr) (x : Fields) (s : State) : Host.Outcome State Fault Refusal := onCore t (.cvt t x) (cvtOp t x) s

/-- `CVTMX` (R159). -/
def execCvtmx (t : Thr) (x : Fields) (s : State) : Host.Outcome State Fault Refusal := onCore t (.cvtmx t x) (cvtmxOp t x) s

end Sys2Proof.Machine
end

