-- ==== Sys2Proof/Machine/Dot.lean ====
section
/-! DEFINITION. The dot and accumulator instructions (R123 to R133, R160 to R165). -/

namespace Sys2Proof.Machine

/-- Adds one block-scaled term to a FIXED accumulator's flags and sum (R128). -/
def fixedTerm (f : Int) (r : Acc × Int) (a b : Val) (sa sb : Nat) : Acc × Int :=
  if sa = 0xFF ∨ sb = 0xFF then ({ r.1 with nan := true }, r.2)
  else
    match a.mul b with
    | .nan => ({ r.1 with nan := true }, r.2)
    | .inf neg => (if neg then { r.1 with ninf := true } else { r.1 with pinf := true }, r.2)
    | .fin neg m e =>
      let q : Int := e + ((sa : Int) + sb - 254) - f
      let k := if q ≥ 0 then m * 2 ^ q.toNat else rndShift .nearest m (-q).toNat
      let lost := decide (q < 0) && decide (m % 2 ^ (-q).toNat ≠ 0)
      ({ r.1 with inx := r.1.inx || lost }, r.2 + (if neg then -(k : Int) else k))

/-- Adds the exact sum of a dot's rounded terms to `N`, with saturation (R128). -/
def satAdd (x : Acc) (t : Int) : Acc :=
  let s := x.n.toInt + t
  if s > 2 ^ 63 - 1 then { x with n := BitVec.ofInt 64 (2 ^ 63 - 1), sat := true }
  else if s < -(2 ^ 63) then { x with n := BitVec.ofInt 64 (-(2 ^ 63)), sat := true }
  else { x with n := BitVec.ofInt 64 s }

/-- One dot into a FIXED accumulator; scale j covers elements 32 j to 32 j + 31 (R123, R128). -/
def dotFixed (x : Acc) (a b : List Val) (sa sb : Nat → Nat) : Acc :=
  let r := ((a.zip b).zipIdx).foldl (fun r e => fixedTerm x.f.toInt r e.1.1 e.1.2 (sa (e.2 / 32)) (sb (e.2 / 32)))
    (x, (0 : Int))
  satAdd r.1 r.2

/-- One dot into a FLOAT accumulator: exact products, exact sum, one rounding (R131). -/
def dotFloat (x : Acc) (a b : List Val) : Acc :=
  let v := (a.zip b).foldl (fun s e => s.add (e.1.mul e.2)) (f32.decode (fld x.n 0 32))
  let r := roundVal f32 .nearest true v
  { x with n := BitVec.ofNat 64 r.1, inx := x.inx || r.2.nx }

/-- The elements of one dot operand, from its packed bytes (R47, R120). -/
def operandElems (c : FmtCode) (packed : Nat) : List Val :=
  (List.range c.perDot).map (fun i => elemVal c true (packed / 2 ^ (c.width * i) % 2 ^ c.width))

/-- The scale codes a scalar register holds, or the implied 0x7F (R161). -/
def scaleCodes (h : Thread) (r : Nat) (j : Nat) : Nat :=
  if r = 0 then 0x7F else fld (h.rs (BitVec.ofNat 5 r)) (8 * j) 8

/-- A FIXED-mode format: FP4, FP6, FP8 or INT8 (R127). -/
def FmtCode.fixed (c : FmtCode) : Bool := c.isMx

/-- Accumulator of the k-th dot (R161). -/
def dotAcc (x : Fields) (k : Nat) : Nat := if fld x.mod 5 2 = 1 then (x.d.toNat + k) % 16 else x.d.toNat

/-- Vector register of operand b of the k-th dot (R161). -/
def dotB (x : Fields) (k : Nat) : Nat := if fld x.mod 5 2 = 2 then (x.b.toNat + k) % 16 else x.b.toNat

/-- How many dots (R160). -/
def dotCount (x : Fields) : Nat := if fld x.mod 5 2 = 0 then 1 else fld x.imm 0 12 + 1

/-- What a dot takes of the thread's stream. -/
inductive Taken where
  | range
  | missing
  | got (data : Nat) (scales : List Nat) (z : Stream)
  deriving DecidableEq, Repr

/-- Takes the operand and scale bytes of one dot from a stream (R48, R154). -/
def takeStream (c : FmtCode) (z : Stream) : Taken :=
  if 0xA000 < z.dptr + c.dotBytes ∨ (c.dotBlocks ≠ 0 ∧ 0xA000 < z.sptr + c.dotBlocks) then .range
  else
    match heldBytes z.data z.dptr c.dotBytes, heldBytes z.scale z.sptr c.dotBlocks with
    | some d, some s =>
      .got (leNat d) (s.map (·.toNat)) { z with dptr := z.dptr + c.dotBytes, sptr := z.sptr + c.dotBlocks }
    | _, _ => .missing

/-- Adds one dot into its accumulator. -/
def dotInto (b : Block) (t : Thr) (x : Fields) (c : FmtCode) (k : Nat) (a : Nat) (sa : Nat → Nat) : Block :=
  let h := thrGet b (thrKey t)
  let sb := scaleCodes h (fld x.imm 17 5)
  coreMod b (coreKey t.core) (fun r =>
    let va := operandElems c a
    let vb := operandElems c (r.rv (dotB x k)).toNat
    let y := r.ra (dotAcc x k)
    r.wa (dotAcc x k) (if c.fixed then dotFixed y va vb sa sb else dotFloat y va vb))

/-- The dots from index `k` on, `n` of them (R161): a streamed dot past the end traps with its index,
and the dots before it stand; a dot whose line could not be read waits. -/
def dotRun (t : Thr) (x : Fields) (c : FmtCode) : Nat → Nat → Block → Block
  | 0, _, b => advance b (thrKey t)
  | n + 1, k, b =>
    let h := thrGet b (thrKey t)
    if bit x.mod 4 then
      match takeStream c h.stream with
      | .range => trapNow b (thrKey t) .streamRange (BitVec.ofNat 32 k)
      | .missing => stall b (thrKey t)
      | .got d s z =>
        let b := dotInto b t x c k d (fun j => s.getD j 0x7F)
        let r := fillStream b (coreKey t.core) z
        dotRun t x c n (k + 1) (thrMod r.1 (thrKey t) (fun h => { h with stream := r.2 }))
    else
      let a := ((coreGet b (coreKey t.core)).rv x.a.toNat).toNat
      dotRun t x c n (k + 1) (dotInto b t x c k a (scaleCodes h (fld x.imm 12 5)))

/-- The field checks of `DOT` (R160, R161). -/
def dotLegal (x : Fields) : Bool :=
  match fmtOf (fld x.mod 0 4) with
  | none => false
  | some c =>
    decide (fld x.mod 5 2 ≠ 3) && zeros x.mod 7 && zeros x.imm 22
      && (decide (fld x.mod 5 2 ≠ 0) || decide (fld x.imm 0 12 = 0))
      && (!bit x.mod 4 || (decide (x.a = 0) && decide (fld x.imm 12 5 = 0)))
      && (c.isMx || decide (fld x.imm 12 10 = 0)) && isV x.d && isV x.a && isV x.b

/-- The first dot whose accumulator is in the other mode (R127). -/
def badMode (r : CoreS) (x : Fields) (c : FmtCode) : Option Nat :=
  (List.range (dotCount x)).find? (fun k => (r.ra (dotAcc x k)).float == c.fixed)

/-- The vector registers a `DOT` reads. -/
def dotUses (x : Fields) : List Nat :=
  (if bit x.mod 4 then [] else [x.a.toNat]) ++
    (if fld x.mod 5 2 = 2 then (List.range (min 16 (dotCount x))).map (dotB x) else [x.b.toNat])

/-- `DOT` (R160, R161). -/
def dotOp (t : Thr) (x : Fields) (b : Block) : Block :=
  let c := (fmtOf (fld x.mod 0 4)).getD .fp32
  issue b (thrKey t) (dotUses x) (dotLegal x) (fun b =>
    match badMode (coreGet b (coreKey t.core)) x c with
    | some k => trapNow b (thrKey t) .accMode (BitVec.ofNat 32 k)
    | none => dotRun t x c (dotCount x) 0 b)

/-- `ACLR` clears every accumulator of the mask `IMM`[15:0] (R163). -/
def aclrOp (t : Thr) (x : Fields) (b : Block) : Block :=
  issue b (thrKey t) []
    (decide (x.d = 0) && decide (x.a = 0) && decide (x.b = 0) && zeros x.mod 1 && zeros x.imm 25
      && (!bit x.mod 0 || decide (fld x.imm 16 9 = 0))) (fun b =>
    advance (coreMod b (coreKey t.core) (fun c =>
      (List.range 16).foldl (fun c i =>
        if bit x.imm i then c.wa i (Acc.clear (bit x.mod 0) (BitVec.ofNat 9 (fld x.imm 16 9))) else c) c))
      (thrKey t))

/-- The FP32 value of a read-out, with its flags (R132). -/
def readOut (y : Acc) (r : Val) (rnd : Rnd) : Nat × Flags :=
  let v : Val := if y.float then f32.decode (fld y.n 0 32)
    else .fin (decide (y.n.toInt < 0)) y.n.toInt.natAbs y.f.toInt
  let nan := r.isNan || y.nan || v.isNan
  let vinf := match v with
    | .inf _ => true
    | _ => false
  let inf := y.pinf || y.ninf || vinf
  let neg := if y.ninf then true else if y.pinf then false else v.sign
  if nan then (f32.nanCode, Flags.none)
  else if y.pinf && y.ninf then (f32.nanCode, { Flags.none with nv := true })
  else if inf then
    if r.isZero then (f32.nanCode, { Flags.none with nv := true })
    else (roundVal f32 .nearest true (.inf (neg != r.sign)))
  else
    match r with
    | .inf rn =>
      if v.isZero then (f32.nanCode, { Flags.none with nv := true })
      else roundVal f32 .nearest true (.inf (v.sign != rn))
    | _ =>
      let q := roundVal f32 rnd true (v.mul r)
      let mag := q.1 % f32.signBit
      if mag = 0 then
        let s := if y.float then v.sign != r.sign else r.sign
        ((if s then f32.signBit else 0), q.2)
      else q

/-- A read-out of acc(A): the result with its flags, the core after it (its generator drawn, its
accumulator cleared where `CLR` is set), and what is copied into `ASTAT` (R133, R135, R164). -/
def readAcc (c : CoreS) (x : Fields) (r : Val) : CoreS × (Nat × Flags) × Word :=
  let y := c.ra x.a.toNat
  let d := if fld x.mod 0 2 = 2 then draw c else (c, 0)
  let res := readOut y r (if fld x.mod 0 2 = 2 then .stoch d.2 else .nearest)
  let c' := if bit x.mod 2 then d.1.wa x.a.toNat (Acc.clear y.float y.f) else d.1
  (c', res, accAstat y)

/-- FP32 1.0. -/
def one32 : Val := .fin false 1 0

/-- `ARD`: the result goes to sD; the row scale is sB, or 1.0 where B is 0 (R164). -/
def ardOp (t : Thr) (x : Fields) (b : Block) : Block :=
  issue b (thrKey t) []
    ((decide (fld x.mod 0 2 = 0) || decide (fld x.mod 0 2 = 2)) && zeros x.mod 3 && decide (x.imm = 0)
      && isV x.a) (fun b =>
    let h := thrGet b (thrKey t)
    let q := readAcc (coreGet b (coreKey t.core)) x (if x.b = 0 then one32 else f32Val (h.rs x.b))
    finish (corePut b (coreKey t.core) q.1) (thrKey t) (fun h =>
      let g := (h.ws x.d (BitVec.ofNat 32 q.2.1.1)).flag q.2.1.2
      { g with astat := g.astat ||| q.2.2 }))

/-- `ARDV`: the result goes to lane `IMM`[3:0] of vD, the other lanes stay (R164). -/
def ardvOp (t : Thr) (x : Fields) (b : Block) : Block :=
  issue b (thrKey t) ([x.d.toNat] ++ (if bit x.mod 3 then [] else [x.b.toNat]))
    ((decide (fld x.mod 0 2 = 0) || decide (fld x.mod 0 2 = 2)) && zeros x.mod 4 && zeros x.imm 4
      && (!bit x.mod 3 || decide (x.b = 0)) && isV x.d && isV x.a && isV x.b) (fun b =>
    let lane := fld x.imm 0 4
    let c := coreGet b (coreKey t.core)
    let q := readAcc c x (if bit x.mod 3 then one32 else f32.decode (elem (c.rv x.b.toNat) 32 lane))
    finish (corePut b (coreKey t.core) (q.1.wv x.d.toNat (setElem (q.1.rv x.d.toNat) 32 lane q.2.1.1)))
      (thrKey t) (fun h =>
        let g := h.flag q.2.1.2
        { g with astat := g.astat ||| q.2.2 }))

/-- The state word of an accumulator (R165). -/
def accWord (y : Acc) : Word :=
  at_ 0 y.f.toNat ||| at_ 9 y.float.toNat ||| at_ 10 y.sat.toNat ||| at_ 11 y.inx.toNat
    ||| at_ 12 y.nan.toNat ||| at_ 13 y.pinf.toNat ||| at_ 14 y.ninf.toNat

/-- `AGET`: a part of acc(A) to sD (R165). -/
def agetOp (t : Thr) (x : Fields) (b : Block) : Block :=
  issue b (thrKey t) []
    (decide (x.b = 0) && decide (fld x.mod 0 2 ≤ 2) && zeros x.mod 2 && decide (x.imm = 0) && isV x.a) (fun b =>
    let y := (coreGet b (coreKey t.core)).ra x.a.toNat
    let v : Word := match fld x.mod 0 2 with
      | 0 => BitVec.ofNat 32 (fld y.n 0 32)
      | 1 => BitVec.ofNat 32 (fld y.n 32 32)
      | _ => accWord y
    finish b (thrKey t) (fun h => h.ws x.d v))

/-- `DOT` (R161). -/
def execDot (t : Thr) (x : Fields) (s : State) : Host.Outcome State Fault Refusal := onCore t (.dot t x) (dotOp t x) s

/-- `ACLR` (R163). -/
def execAclr (t : Thr) (x : Fields) (s : State) : Host.Outcome State Fault Refusal := onCore t (.aclr t x) (aclrOp t x) s

/-- `ARD` (R164). -/
def execArd (t : Thr) (x : Fields) (s : State) : Host.Outcome State Fault Refusal := onCore t (.ard t x) (ardOp t x) s

/-- `ARDV` (R164). -/
def execArdv (t : Thr) (x : Fields) (s : State) : Host.Outcome State Fault Refusal := onCore t (.ardv t x) (ardvOp t x) s

/-- `AGET` (R165). -/
def execAget (t : Thr) (x : Fields) (s : State) : Host.Outcome State Fault Refusal := onCore t (.aget t x) (agetOp t x) s

end Sys2Proof.Machine
end

