-- ==== Sys2Proof/Machine/Scalar.lean ====
section
/-! DEFINITION. The scalar instructions, in their register and immediate forms (R151). -/

namespace Sys2Proof.Machine

/-- Sum, modulo 2^32 (R151 `ADD`). -/
def opAdd (a b : Word) : Word := a + b

/-- Difference, modulo 2^32 (R151 `SUB`). -/
def opSub (a b : Word) : Word := a - b

/-- Bitwise and (R151 `AND`). -/
def opAnd (a b : Word) : Word := a &&& b

/-- Bitwise or (R151 `OR`). -/
def opOr (a b : Word) : Word := a ||| b

/-- Bitwise exclusive or (R151 `XOR`). -/
def opXor (a b : Word) : Word := a ^^^ b

/-- Shift left by bits [4:0] (R151 `SHL`). -/
def opShl (a b : Word) : Word := a <<< (fld b 0 5)

/-- Logical shift right by bits [4:0] (R151 `SHR`). -/
def opShr (a b : Word) : Word := a >>> (fld b 0 5)

/-- Arithmetic shift right by bits [4:0] (R151 `SRA`). -/
def opSra (a b : Word) : Word := a.sshiftRight (fld b 0 5)

/-- 1 where the first is below the second, signed (R151 `SLT`). -/
def opSlt (a b : Word) : Word := if a.slt b then 1 else 0

/-- 1 where the first is below the second, unsigned (R151 `SLTU`). -/
def opSltu (a b : Word) : Word := if a.ult b then 1 else 0

/-- Bits [31:0] of the product (R151 `MUL`). -/
def opMul (a b : Word) : Word := a * b

/-- Bits [63:32] of the signed product (R151 `MULH`). -/
def opMulh (a b : Word) : Word := BitVec.ofInt 32 (a.toInt * b.toInt / 2 ^ 32)

/-- Bits [63:32] of the unsigned product (R151 `MULHU`). -/
def opMulhu (a b : Word) : Word := BitVec.ofNat 32 (a.toNat * b.toNat / 2 ^ 32)

/-- Signed minimum (R151 `MIN`). -/
def opMin (a b : Word) : Word := if b.slt a then b else a

/-- Signed maximum (R151 `MAX`). -/
def opMax (a b : Word) : Word := if a.slt b then b else a

/-- A register form: `MOD` and `IMM` are 0 (R151). -/
def scalarReg (op : Word → Word → Word) (t : Thr) (x : Fields) (b : Block) : Block :=
  issue b (thrKey t) [] (decide (x.mod = 0) && decide (x.imm = 0)) (fun b =>
    finish b (thrKey t) (fun h => h.ws x.d (op (h.rs x.a) (h.rs x.b))))

/-- An immediate form: the second operand is `IMM`; `B` and `MOD` are 0 (R151). -/
def scalarImm (op : Word → Word → Word) (t : Thr) (x : Fields) (b : Block) : Block :=
  issue b (thrKey t) [] (decide (x.b = 0) && decide (x.mod = 0)) (fun b =>
    finish b (thrKey t) (fun h => h.ws x.d (op (h.rs x.a) x.imm)))

/-- `ADD` (R151). -/
def execAdd (t : Thr) (x : Fields) (s : State) : Host.Outcome State Fault Refusal :=
  onCore t (.add t x) (scalarReg opAdd t x) s

/-- `SUB` (R151). -/
def execSub (t : Thr) (x : Fields) (s : State) : Host.Outcome State Fault Refusal :=
  onCore t (.sub t x) (scalarReg opSub t x) s

/-- `AND` (R151). -/
def execAndOp (t : Thr) (x : Fields) (s : State) : Host.Outcome State Fault Refusal :=
  onCore t (.andOp t x) (scalarReg opAnd t x) s

/-- `OR` (R151). -/
def execOrOp (t : Thr) (x : Fields) (s : State) : Host.Outcome State Fault Refusal :=
  onCore t (.orOp t x) (scalarReg opOr t x) s

/-- `XOR` (R151). -/
def execXor (t : Thr) (x : Fields) (s : State) : Host.Outcome State Fault Refusal :=
  onCore t (.xor t x) (scalarReg opXor t x) s

/-- `SHL` (R151). -/
def execShl (t : Thr) (x : Fields) (s : State) : Host.Outcome State Fault Refusal :=
  onCore t (.shl t x) (scalarReg opShl t x) s

/-- `SHR` (R151). -/
def execShr (t : Thr) (x : Fields) (s : State) : Host.Outcome State Fault Refusal :=
  onCore t (.shr t x) (scalarReg opShr t x) s

/-- `SRA` (R151). -/
def execSra (t : Thr) (x : Fields) (s : State) : Host.Outcome State Fault Refusal :=
  onCore t (.sra t x) (scalarReg opSra t x) s

/-- `SLT` (R151). -/
def execSlt (t : Thr) (x : Fields) (s : State) : Host.Outcome State Fault Refusal :=
  onCore t (.slt t x) (scalarReg opSlt t x) s

/-- `SLTU` (R151). -/
def execSltu (t : Thr) (x : Fields) (s : State) : Host.Outcome State Fault Refusal :=
  onCore t (.sltu t x) (scalarReg opSltu t x) s

/-- `MUL` (R151). -/
def execMul (t : Thr) (x : Fields) (s : State) : Host.Outcome State Fault Refusal :=
  onCore t (.mul t x) (scalarReg opMul t x) s

/-- `MULH` (R151). -/
def execMulh (t : Thr) (x : Fields) (s : State) : Host.Outcome State Fault Refusal :=
  onCore t (.mulh t x) (scalarReg opMulh t x) s

/-- `MULHU` (R151). -/
def execMulhu (t : Thr) (x : Fields) (s : State) : Host.Outcome State Fault Refusal :=
  onCore t (.mulhu t x) (scalarReg opMulhu t x) s

/-- `MIN` (R151). -/
def execMinOp (t : Thr) (x : Fields) (s : State) : Host.Outcome State Fault Refusal :=
  onCore t (.minOp t x) (scalarReg opMin t x) s

/-- `MAX` (R151). -/
def execMaxOp (t : Thr) (x : Fields) (s : State) : Host.Outcome State Fault Refusal :=
  onCore t (.maxOp t x) (scalarReg opMax t x) s

/-- `ADDI` (R151). -/
def execAddi (t : Thr) (x : Fields) (s : State) : Host.Outcome State Fault Refusal :=
  onCore t (.addi t x) (scalarImm opAdd t x) s

/-- `SUBI` (R151). -/
def execSubi (t : Thr) (x : Fields) (s : State) : Host.Outcome State Fault Refusal :=
  onCore t (.subi t x) (scalarImm opSub t x) s

/-- `ANDI` (R151). -/
def execAndi (t : Thr) (x : Fields) (s : State) : Host.Outcome State Fault Refusal :=
  onCore t (.andi t x) (scalarImm opAnd t x) s

/-- `ORI` (R151). -/
def execOri (t : Thr) (x : Fields) (s : State) : Host.Outcome State Fault Refusal :=
  onCore t (.ori t x) (scalarImm opOr t x) s

/-- `XORI` (R151). -/
def execXori (t : Thr) (x : Fields) (s : State) : Host.Outcome State Fault Refusal :=
  onCore t (.xori t x) (scalarImm opXor t x) s

/-- `SHLI` (R151). -/
def execShli (t : Thr) (x : Fields) (s : State) : Host.Outcome State Fault Refusal :=
  onCore t (.shli t x) (scalarImm opShl t x) s

/-- `SHRI` (R151). -/
def execShri (t : Thr) (x : Fields) (s : State) : Host.Outcome State Fault Refusal :=
  onCore t (.shri t x) (scalarImm opShr t x) s

/-- `SRAI` (R151). -/
def execSrai (t : Thr) (x : Fields) (s : State) : Host.Outcome State Fault Refusal :=
  onCore t (.srai t x) (scalarImm opSra t x) s

/-- `SLTI` (R151). -/
def execSlti (t : Thr) (x : Fields) (s : State) : Host.Outcome State Fault Refusal :=
  onCore t (.slti t x) (scalarImm opSlt t x) s

/-- `SLTUI` (R151). -/
def execSltui (t : Thr) (x : Fields) (s : State) : Host.Outcome State Fault Refusal :=
  onCore t (.sltui t x) (scalarImm opSltu t x) s

/-- `MULI` (R151). -/
def execMuli (t : Thr) (x : Fields) (s : State) : Host.Outcome State Fault Refusal :=
  onCore t (.muli t x) (scalarImm opMul t x) s

/-- `MULHI` (R151). -/
def execMulhi (t : Thr) (x : Fields) (s : State) : Host.Outcome State Fault Refusal :=
  onCore t (.mulhi t x) (scalarImm opMulh t x) s

/-- `MULHUI` (R151). -/
def execMulhui (t : Thr) (x : Fields) (s : State) : Host.Outcome State Fault Refusal :=
  onCore t (.mulhui t x) (scalarImm opMulhu t x) s

/-- `MINI` (R151). -/
def execMini (t : Thr) (x : Fields) (s : State) : Host.Outcome State Fault Refusal :=
  onCore t (.mini t x) (scalarImm opMin t x) s

/-- `MAXI` (R151). -/
def execMaxi (t : Thr) (x : Fields) (s : State) : Host.Outcome State Fault Refusal :=
  onCore t (.maxi t x) (scalarImm opMax t x) s

end Sys2Proof.Machine
end

