-- ==== Sys2Proof/Machine/Vector.lean ====
section
/-! DEFINITION. The vector, reduction and special-function instructions (R140, R141, R155 to R157). -/

namespace Sys2Proof.Machine

/-- The element formats of the vector unit: `MOD`[3:0] is 6, 7 or 8 (R155). -/
def vfmt (m : Nat) : Option FmtCode :=
  match m with
  | 6 => some .bf16 | 7 => some .fp16 | 8 => some .fp32 | _ => none

/-- An instruction that writes vD from the core's registers and raises flags. -/
def vecOp (t : Thr) (uses : List Nat) (legal : Bool) (x : Fields) (f : CoreS → Line × Flags)
    (b : Block) : Block :=
  issue b (thrKey t) uses legal (fun b =>
    let r := f (coreGet b (coreKey t.core))
    finish (coreMod b (coreKey t.core) (fun c => c.wv x.d.toNat r.1)) (thrKey t) (fun h => h.flag r.2))

/-- Applies an operation to each element of a vector of a format. -/
def eachElem (c : FmtCode) (f : Nat → Nat × Flags) : Line × Flags :=
  let l := (List.range c.perReg).map f
  (packVec c.width (l.map (·.1)), allFlags l)

/-- The value of element `i` of a vector. -/
def elemAt (c : FmtCode) (v : Line) (i : Nat) : Val := c.layout.decode (elem v c.width i)

/-- An element-by-element operation of two or three operands in the format of `MOD`[3:0] (R140). -/
def vec3 (op : FmtCode → Val → Val → Val → Nat × Flags) (t : Thr) (x : Fields) (b : Block) : Block :=
  let c := (vfmt (fld x.mod 0 4)).getD .fp32
  vecOp t [x.d.toNat, x.a.toNat, x.b.toNat]
    ((vfmt (fld x.mod 0 4)).isSome && zeros x.mod 4 && decide (x.imm = 0) && isV x.d && isV x.a && isV x.b) x
    (fun r => eachElem c (fun i => op c (elemAt c (r.rv x.a.toNat) i) (elemAt c (r.rv x.b.toNat) i)
      (elemAt c (r.rv x.d.toNat) i))) b

/-- Addition (R140). -/
def opVadd (c : FmtCode) (a b _ : Val) : Nat × Flags := roundIeee c.layout [a, b] (a.add b)
/-- Subtraction. -/
def opVsub (c : FmtCode) (a b _ : Val) : Nat × Flags := roundIeee c.layout [a, b] (a.add b.neg)
/-- Multiplication. -/
def opVmul (c : FmtCode) (a b _ : Val) : Nat × Flags := roundIeee c.layout [a, b] (a.mul b)
/-- Fused multiply-add, rounded once. -/
def opVfma (c : FmtCode) (a b d : Val) : Nat × Flags := roundIeee c.layout [a, b, d] ((a.mul b).add d)
/-- Minimum. -/
def opVmin (c : FmtCode) (a b _ : Val) : Nat × Flags := roundVal c.layout .nearest true (a.min b)
/-- Maximum. -/
def opVmax (c : FmtCode) (a b _ : Val) : Nat × Flags := roundVal c.layout .nearest true (a.max b)

/-- The predicates of `VCMP`: 0 EQ, 1 NE, 2 LT, 3 LE; a NaN satisfies only NE (R140, R155). -/
def vpred (p : Nat) (a b : Val) : Bool :=
  match p with
  | 0 => a.eqv b
  | 1 => !a.eqv b
  | 2 => a.lt b
  | _ => a.lt b || a.eqv b

/-- `VCMP`: all ones where the predicate `MOD`[6:4] holds (R155). -/
def vcmpOp (t : Thr) (x : Fields) (b : Block) : Block :=
  let c := (vfmt (fld x.mod 0 4)).getD .fp32
  vecOp t [x.d.toNat, x.a.toNat, x.b.toNat]
    ((vfmt (fld x.mod 0 4)).isSome && decide (fld x.mod 4 3 ≤ 3) && zeros x.mod 7 && decide (x.imm = 0)
      && isV x.d && isV x.a && isV x.b) x
    (fun r => eachElem c (fun i =>
      (if vpred (fld x.mod 4 3) (elemAt c (r.rv x.a.toNat) i) (elemAt c (r.rv x.b.toNat) i)
        then 2 ^ c.width - 1 else 0, Flags.none))) b

/-- A bitwise instruction on 512 bits of vA, vB and vD: `MOD` and `IMM` are 0 (R155). -/
def vbits (op : Line → Line → Line → Line) (t : Thr) (x : Fields) (b : Block) : Block :=
  vecOp t [x.d.toNat, x.a.toNat, x.b.toNat]
    (decide (x.mod = 0) && decide (x.imm = 0) && isV x.d && isV x.a && isV x.b) x
    (fun r => (op (r.rv x.a.toNat) (r.rv x.b.toNat) (r.rv x.d.toNat), Flags.none)) b

/-- `VBCAST`: every 32-bit lane of vD is sA (R155). -/
def vbcastOp (t : Thr) (x : Fields) (b : Block) : Block :=
  issue b (thrKey t) [x.d.toNat]
    (decide (x.b = 0) && decide (x.mod = 0) && decide (x.imm = 0) && isV x.d) (fun b =>
    let v := (thrGet b (thrKey t)).rs x.a
    advance (coreMod b (coreKey t.core) (fun c =>
      c.wv x.d.toNat (packVec 32 (List.replicate 16 v.toNat)))) (thrKey t))

/-- `VEXT`: sD is 32-bit lane `IMM`[3:0] of vA (R155). -/
def vextOp (t : Thr) (x : Fields) (b : Block) : Block :=
  issue b (thrKey t) [x.a.toNat]
    (decide (x.b = 0) && decide (x.mod = 0) && zeros x.imm 4 && isV x.a) (fun b =>
    let v := (coreGet b (coreKey t.core)).rv x.a.toNat
    finish b (thrKey t) (fun h => h.ws x.d (BitVec.ofNat 32 (elem v 32 (fld x.imm 0 4)))))

/-- `VINS`: lane `IMM`[3:0] of vD is sA, the other lanes stay (R155). -/
def vinsOp (t : Thr) (x : Fields) (b : Block) : Block :=
  issue b (thrKey t) [x.d.toNat]
    (decide (x.b = 0) && decide (x.mod = 0) && zeros x.imm 4 && isV x.d) (fun b =>
    let v := (thrGet b (thrKey t)).rs x.a
    advance (coreMod b (coreKey t.core) (fun c =>
      c.wv x.d.toNat (setElem (c.rv x.d.toNat) 32 (fld x.imm 0 4) v.toNat))) (thrKey t))

/-- One FP32 addition of two codes (R156). -/
def addCodes (a b : Nat) : Nat × Flags := opVadd .fp32 (f32.decode a) (f32.decode b) .nan

/-- One level of the adding tree: adjacent pairs. -/
def pairSums : List Nat → List (Nat × Flags)
  | a :: b :: r => addCodes a b :: pairSums r
  | [a] => [(a, Flags.none)]
  | [] => []

/-- The fixed tree of `VSUM`, `n` levels (R156). -/
def sumTree : Nat → List Nat → Flags → Nat × Flags
  | 0, l, f => (l.headD 0, f)
  | n + 1, l, f =>
    let r := pairSums l
    sumTree n (r.map (·.1)) (f.or (allFlags r))

/-- The 16 FP32 lanes of a vector. -/
def lanes32 (v : Line) : List Nat := (List.range 16).map (elem v 32)

/-- The maximum of the lanes under the NaN rules of R140 (R155). -/
def maxLanes (l : List Nat) : Nat × Flags :=
  match l with
  | [] => (0, Flags.none)
  | a :: r => (r.foldl (fun m y => (opVmax .fp32 (f32.decode m) (f32.decode y) .nan).1)
      (roundVal f32 .nearest true (f32.decode a)).1, Flags.none)

/-- A reduction of the 16 FP32 lanes of vA into sD; `FMT` must be 8 (R155). -/
def reduce (f : List Nat → Nat × Flags) (t : Thr) (x : Fields) (b : Block) : Block :=
  issue b (thrKey t) [x.a.toNat]
    (decide (x.b = 0) && decide (x.mod = 8) && decide (x.imm = 0) && isV x.a) (fun b =>
    let r := f (lanes32 ((coreGet b (coreKey t.core)).rv x.a.toNat))
    finish b (thrKey t) (fun h => (h.ws x.d (BitVec.ofNat 32 r.1)).flag r.2))

/-- `VSUM`'s sum. -/
def vsumLanes (l : List Nat) : Nat × Flags := sumTree 4 l Flags.none

/-- A special function of each FP32 lane of vA; `B`, `MOD` and `IMM` are 0 (R157). -/
def special (f : Sfu) (t : Thr) (x : Fields) (b : Block) : Block :=
  vecOp t [x.d.toNat, x.a.toNat]
    (decide (x.b = 0) && decide (x.mod = 0) && decide (x.imm = 0) && isV x.d && isV x.a) x
    (fun r => eachElem .fp32 (fun i => sfu f (BitVec.ofNat 32 (elem (r.rv x.a.toNat) 32 i)))) b

/-- `VADD` (R155). -/
def execVadd (t : Thr) (x : Fields) (s : State) : Host.Outcome State Fault Refusal :=
  onCore t (.vadd t x) (vec3 opVadd t x) s

/-- `VSUB` (R155). -/
def execVsub (t : Thr) (x : Fields) (s : State) : Host.Outcome State Fault Refusal :=
  onCore t (.vsub t x) (vec3 opVsub t x) s

/-- `VMUL` (R155). -/
def execVmul (t : Thr) (x : Fields) (s : State) : Host.Outcome State Fault Refusal :=
  onCore t (.vmul t x) (vec3 opVmul t x) s

/-- `VFMA` (R155). -/
def execVfma (t : Thr) (x : Fields) (s : State) : Host.Outcome State Fault Refusal :=
  onCore t (.vfma t x) (vec3 opVfma t x) s

/-- `VMIN` (R155). -/
def execVmin (t : Thr) (x : Fields) (s : State) : Host.Outcome State Fault Refusal :=
  onCore t (.vmin t x) (vec3 opVmin t x) s

/-- `VMAX` (R155). -/
def execVmax (t : Thr) (x : Fields) (s : State) : Host.Outcome State Fault Refusal :=
  onCore t (.vmax t x) (vec3 opVmax t x) s

/-- `VCMP` (R155). -/
def execVcmp (t : Thr) (x : Fields) (s : State) : Host.Outcome State Fault Refusal :=
  onCore t (.vcmp t x) (vcmpOp t x) s

/-- `VAND` (R155). -/
def execVand (t : Thr) (x : Fields) (s : State) : Host.Outcome State Fault Refusal :=
  onCore t (.vand t x) (vbits (fun a b _ => a &&& b) t x) s

/-- `VOR` (R155). -/
def execVor (t : Thr) (x : Fields) (s : State) : Host.Outcome State Fault Refusal :=
  onCore t (.vor t x) (vbits (fun a b _ => a ||| b) t x) s

/-- `VXOR` (R155). -/
def execVxor (t : Thr) (x : Fields) (s : State) : Host.Outcome State Fault Refusal :=
  onCore t (.vxor t x) (vbits (fun a b _ => a ^^^ b) t x) s

/-- `VSEL` (R155). -/
def execVsel (t : Thr) (x : Fields) (s : State) : Host.Outcome State Fault Refusal :=
  onCore t (.vsel t x) (vbits (fun a b d => (a &&& d) ||| (b &&& ~~~d)) t x) s

/-- `VBCAST` (R155). -/
def execVbcast (t : Thr) (x : Fields) (s : State) : Host.Outcome State Fault Refusal :=
  onCore t (.vbcast t x) (vbcastOp t x) s

/-- `VEXT` (R155). -/
def execVext (t : Thr) (x : Fields) (s : State) : Host.Outcome State Fault Refusal :=
  onCore t (.vext t x) (vextOp t x) s

/-- `VINS` (R155). -/
def execVins (t : Thr) (x : Fields) (s : State) : Host.Outcome State Fault Refusal :=
  onCore t (.vins t x) (vinsOp t x) s

/-- `VSUM` (R156). -/
def execVsum (t : Thr) (x : Fields) (s : State) : Host.Outcome State Fault Refusal :=
  onCore t (.vsum t x) (reduce vsumLanes t x) s

/-- `VMAXR` (R155). -/
def execVmaxr (t : Thr) (x : Fields) (s : State) : Host.Outcome State Fault Refusal :=
  onCore t (.vmaxr t x) (reduce maxLanes t x) s

/-- `VEXP` (R157). -/
def execVexp (t : Thr) (x : Fields) (s : State) : Host.Outcome State Fault Refusal :=
  onCore t (.vexp t x) (special .exp t x) s

/-- `VRCP` (R157). -/
def execVrcp (t : Thr) (x : Fields) (s : State) : Host.Outcome State Fault Refusal :=
  onCore t (.vrcp t x) (special .rcp t x) s

/-- `VRSQ` (R157). -/
def execVrsq (t : Thr) (x : Fields) (s : State) : Host.Outcome State Fault Refusal :=
  onCore t (.vrsq t x) (special .rsq t x) s

/-- `VSIG` (R157). -/
def execVsig (t : Thr) (x : Fields) (s : State) : Host.Outcome State Fault Refusal :=
  onCore t (.vsig t x) (special .sig t x) s

/-- `VSILU` (R157). -/
def execVsilu (t : Thr) (x : Fields) (s : State) : Host.Outcome State Fault Refusal :=
  onCore t (.vsilu t x) (special .silu t x) s

end Sys2Proof.Machine
end

