-- ==== Sys2Proof/Machine/Dispatch.lean ====
section
/-! DEFINITION. The dispatch of every command to its meaning: one arm per constructor. -/

namespace Sys2Proof.Machine

/-- The effect of a command on everything but the queue. -/
def exec (i : Instr) (s : State) : Host.Outcome State Fault Refusal :=
  match i with
  | .add t x => Sys2Proof.Machine.execAdd t x s
  | .sub t x => Sys2Proof.Machine.execSub t x s
  | .andOp t x => Sys2Proof.Machine.execAndOp t x s
  | .orOp t x => Sys2Proof.Machine.execOrOp t x s
  | .xor t x => Sys2Proof.Machine.execXor t x s
  | .shl t x => Sys2Proof.Machine.execShl t x s
  | .shr t x => Sys2Proof.Machine.execShr t x s
  | .sra t x => Sys2Proof.Machine.execSra t x s
  | .slt t x => Sys2Proof.Machine.execSlt t x s
  | .sltu t x => Sys2Proof.Machine.execSltu t x s
  | .mul t x => Sys2Proof.Machine.execMul t x s
  | .mulh t x => Sys2Proof.Machine.execMulh t x s
  | .mulhu t x => Sys2Proof.Machine.execMulhu t x s
  | .minOp t x => Sys2Proof.Machine.execMinOp t x s
  | .maxOp t x => Sys2Proof.Machine.execMaxOp t x s
  | .addi t x => Sys2Proof.Machine.execAddi t x s
  | .subi t x => Sys2Proof.Machine.execSubi t x s
  | .andi t x => Sys2Proof.Machine.execAndi t x s
  | .ori t x => Sys2Proof.Machine.execOri t x s
  | .xori t x => Sys2Proof.Machine.execXori t x s
  | .shli t x => Sys2Proof.Machine.execShli t x s
  | .shri t x => Sys2Proof.Machine.execShri t x s
  | .srai t x => Sys2Proof.Machine.execSrai t x s
  | .slti t x => Sys2Proof.Machine.execSlti t x s
  | .sltui t x => Sys2Proof.Machine.execSltui t x s
  | .muli t x => Sys2Proof.Machine.execMuli t x s
  | .mulhi t x => Sys2Proof.Machine.execMulhi t x s
  | .mulhui t x => Sys2Proof.Machine.execMulhui t x s
  | .mini t x => Sys2Proof.Machine.execMini t x s
  | .maxi t x => Sys2Proof.Machine.execMaxi t x s
  | .beq t x => Sys2Proof.Machine.execBeq t x s
  | .bne t x => Sys2Proof.Machine.execBne t x s
  | .blt t x => Sys2Proof.Machine.execBlt t x s
  | .bge t x => Sys2Proof.Machine.execBge t x s
  | .bltu t x => Sys2Proof.Machine.execBltu t x s
  | .bgeu t x => Sys2Proof.Machine.execBgeu t x s
  | .jal t x => Sys2Proof.Machine.execJal t x s
  | .jalr t x => Sys2Proof.Machine.execJalr t x s
  | .ld t x => Sys2Proof.Machine.execLd t x s
  | .st t x => Sys2Proof.Machine.execSt t x s
  | .ldv t x => Sys2Proof.Machine.execLdv t x s
  | .stv t x => Sys2Proof.Machine.execStv t x s
  | .strm t x => Sys2Proof.Machine.execStrm t x s
  | .vadd t x => Sys2Proof.Machine.execVadd t x s
  | .vsub t x => Sys2Proof.Machine.execVsub t x s
  | .vmul t x => Sys2Proof.Machine.execVmul t x s
  | .vfma t x => Sys2Proof.Machine.execVfma t x s
  | .vmin t x => Sys2Proof.Machine.execVmin t x s
  | .vmax t x => Sys2Proof.Machine.execVmax t x s
  | .vcmp t x => Sys2Proof.Machine.execVcmp t x s
  | .vand t x => Sys2Proof.Machine.execVand t x s
  | .vor t x => Sys2Proof.Machine.execVor t x s
  | .vxor t x => Sys2Proof.Machine.execVxor t x s
  | .vsel t x => Sys2Proof.Machine.execVsel t x s
  | .vbcast t x => Sys2Proof.Machine.execVbcast t x s
  | .vext t x => Sys2Proof.Machine.execVext t x s
  | .vins t x => Sys2Proof.Machine.execVins t x s
  | .vsum t x => Sys2Proof.Machine.execVsum t x s
  | .vmaxr t x => Sys2Proof.Machine.execVmaxr t x s
  | .dot t x => Sys2Proof.Machine.execDot t x s
  | .aclr t x => Sys2Proof.Machine.execAclr t x s
  | .ard t x => Sys2Proof.Machine.execArd t x s
  | .ardv t x => Sys2Proof.Machine.execArdv t x s
  | .aget t x => Sys2Proof.Machine.execAget t x s
  | .cvt t x => Sys2Proof.Machine.execCvt t x s
  | .cvtmx t x => Sys2Proof.Machine.execCvtmx t x s
  | .vexp t x => Sys2Proof.Machine.execVexp t x s
  | .vrcp t x => Sys2Proof.Machine.execVrcp t x s
  | .vrsq t x => Sys2Proof.Machine.execVrsq t x s
  | .vsig t x => Sys2Proof.Machine.execVsig t x s
  | .vsilu t x => Sys2Proof.Machine.execVsilu t x s
  | .rwr t x => Sys2Proof.Machine.execRwr t x s
  | .rwrv t x => Sys2Proof.Machine.execRwrv t x s
  | .rrd t x => Sys2Proof.Machine.execRrd t x s
  | .rrdv t x => Sys2Proof.Machine.execRrdv t x s
  | .pump t x => Sys2Proof.Machine.execPump t x s
  | .sadd t x => Sys2Proof.Machine.execSadd t x s
  | .ssub t x => Sys2Proof.Machine.execSsub t x s
  | .waitge t x => Sys2Proof.Machine.execWaitge t x s
  | .take t x => Sys2Proof.Machine.execTake t x s
  | .fence t x => Sys2Proof.Machine.execFence t x s
  | .arrive t x => Sys2Proof.Machine.execArrive t x s
  | .nop t x => Sys2Proof.Machine.execNop t x s
  | .halt t x => Sys2Proof.Machine.execHalt t x s
  | .tstart t x => Sys2Proof.Machine.execTstart t x s
  | .mfsr t x => Sys2Proof.Machine.execMfsr t x s
  | .mtsr t x => Sys2Proof.Machine.execMtsr t x s
  | .trap t x => Sys2Proof.Machine.execTrap t x s
  | .meshRemoteWrite src dst e => Sys2Proof.Machine.execMeshRemoteWrite src dst e s
  | .meshRemoteReadRequest src dst e => Sys2Proof.Machine.execMeshRemoteReadRequest src dst e s
  | .meshReadResponse src dst e => Sys2Proof.Machine.execMeshReadResponse src dst e s
  | .meshWriteAck src dst e => Sys2Proof.Machine.execMeshWriteAck src dst e s
  | .semaphoreOperationPacket src dst e => Sys2Proof.Machine.execSemaphoreOperationPacket src dst e s
  | .waitRetryResend t => Sys2Proof.Machine.execWaitRetryResend t s
  | .waitTimeout t => Sys2Proof.Machine.execWaitTimeout t s
  | .waitCancelArrival t => Sys2Proof.Machine.execWaitCancelArrival t s
  | .pumpCommandComplete k => Sys2Proof.Machine.execPumpCommandComplete k s
  | .samplerInputLine k => Sys2Proof.Machine.execSamplerInputLine k s
  | .scrubRequest c => Sys2Proof.Machine.execScrubRequest c s
  | .coreNap c => Sys2Proof.Machine.execCoreNap c s
  | .pumpSluiceClose k => Sys2Proof.Machine.execPumpSluiceClose k s
  | .sluiceTimeout u => Sys2Proof.Machine.execSluiceTimeout u s
  | .stepStart p => Sys2Proof.Machine.execStepStart p s
  | .stepCommit p => Sys2Proof.Machine.execStepCommit p s
  | .doorbellInvalidation d => Sys2Proof.Machine.execDoorbellInvalidation d s
  | .doorbellRereadReturn d tail cqHead rqHead => Sys2Proof.Machine.execDoorbellRereadReturn d tail cqHead rqHead s
  | .doorbellPoll => Sys2Proof.Machine.execDoorbellPoll s
  | .descriptorFetch q d => Sys2Proof.Machine.execDescriptorFetch q d s
  | .sessionOpen q => Sys2Proof.Machine.execSessionOpen q s
  | .sessionClose q => Sys2Proof.Machine.execSessionClose q s
  | .sessionCloseDone n => Sys2Proof.Machine.execSessionCloseDone n s
  | .turn q prompt => Sys2Proof.Machine.execTurn q prompt s
  | .turnAdmission q pages => Sys2Proof.Machine.execTurnAdmission q pages s
  | .modelStageStage q list first => Sys2Proof.Machine.execModelStageStage q list first s
  | .stageCopyDone n chunks => Sys2Proof.Machine.execStageCopyDone n chunks s
  | .modelStageRelease q => Sys2Proof.Machine.execModelStageRelease q s
  | .paddockLoad q => Sys2Proof.Machine.execPaddockLoad q s
  | .paddockLoadDone p => Sys2Proof.Machine.execPaddockLoadDone p s
  | .paddockUnloadDrain q => Sys2Proof.Machine.execPaddockUnloadDrain q s
  | .paddockUnloadDone p => Sys2Proof.Machine.execPaddockUnloadDone p s
  | .paddockUnloadRestart q => Sys2Proof.Machine.execPaddockUnloadRestart q s
  | .gaitSet q => Sys2Proof.Machine.execGaitSet q s
  | .calRequest q => Sys2Proof.Machine.execCalRequest q s
  | .calDone p limitFail txErrs rxErrs => Sys2Proof.Machine.execCalDone p limitFail txErrs rxErrs s
  | .selftestTeams q => Sys2Proof.Machine.execSelftestTeams q s
  | .selftestStart id => Sys2Proof.Machine.execSelftestStart id s
  | .selftestHbm q => Sys2Proof.Machine.execSelftestHbm q s
  | .selftestDone id bad => Sys2Proof.Machine.execSelftestDone id bad s
  | .fenceDescriptor q => Sys2Proof.Machine.execFenceDescriptor q s
  | .fenceDescriptorDone q => Sys2Proof.Machine.execFenceDescriptorDone q s
  | .nopDescriptor q => Sys2Proof.Machine.execNopDescriptor q s
  | .msixModerationTimeout v => Sys2Proof.Machine.execMsixModerationTimeout v s
  | .msixUnmask v => Sys2Proof.Machine.execMsixUnmask v s
  | .ringEnable w => Sys2Proof.Machine.execRingEnable w s
  | .ringDrain w => Sys2Proof.Machine.execRingDrain w s
  | .ringDisabled q => Sys2Proof.Machine.execRingDisabled q s
  | .evtEnable w => Sys2Proof.Machine.execEvtEnable w s
  | .hostifReset w => Sys2Proof.Machine.execHostifReset w s
  | .functionLevelReset => Sys2Proof.Machine.execFunctionLevelReset s
  | .cxlLinkRetrain x8 => Sys2Proof.Machine.execCxlLinkRetrain x8 s
  | .cxlMemRead off => Sys2Proof.Machine.execCxlMemRead off s
  | .cxlMemWrite off data poison => Sys2Proof.Machine.execCxlMemWrite off data poison s
  | .ideKmMessage io active => Sys2Proof.Machine.execIdeKmMessage io active s
  | .getIdentity => Sys2Proof.Machine.execGetIdentity s
  | .getReport nonce => Sys2Proof.Machine.execGetReport nonce s
  | .signingHoldTimeout => Sys2Proof.Machine.execSigningHoldTimeout s
  | .debugChallenge => Sys2Proof.Machine.execDebugChallenge s
  | .debugUnlock sig => Sys2Proof.Machine.execDebugUnlock sig s
  | .policyProgram w blown => Sys2Proof.Machine.execPolicyProgram w blown s
  | .lifecycleAdvance w blown => Sys2Proof.Machine.execLifecycleAdvance w blown s
  | .storeCommit w => Sys2Proof.Machine.execStoreCommit w s
  | .storeReserve w => Sys2Proof.Machine.execStoreReserve w s
  | .storeClearLog w => Sys2Proof.Machine.execStoreClearLog w s
  | .storeCommandDone readBackOk => Sys2Proof.Machine.execStoreCommandDone readBackOk s
  | .firmwareUpdateGo w bundle => Sys2Proof.Machine.execFirmwareUpdateGo w bundle s
  | .firmwareUpdateDone readBackOk => Sys2Proof.Machine.execFirmwareUpdateDone readBackOk s
  | .arbCommit w => Sys2Proof.Machine.execArbCommit w s
  | .syncdbgPokeSet w => Sys2Proof.Machine.execSyncdbgPokeSet w s
  | .syncdbgPokeAdd w => Sys2Proof.Machine.execSyncdbgPokeAdd w s
  | .syncdbgPokeSubtract w => Sys2Proof.Machine.execSyncdbgPokeSubtract w s
  | .resolve w => Sys2Proof.Machine.execResolve w s
  | .paceApply w => Sys2Proof.Machine.execPaceApply w s
  | .sessSelCapture w => Sys2Proof.Machine.execSessSelCapture w s
  | .memRetireAdd w => Sys2Proof.Machine.execMemRetireAdd w s
  | .spillEnable w list => Sys2Proof.Machine.execSpillEnable w list s
  | .recall w pages => Sys2Proof.Machine.execRecall w pages s
  | .sessionSpill n => Sys2Proof.Machine.execSessionSpill n s
  | .hbmPoolZeroing seg => Sys2Proof.Machine.execHbmPoolZeroing seg s
  | .hbmPatrolScrub seg => Sys2Proof.Machine.execHbmPatrolScrub seg s
  | .faultReport ext => Sys2Proof.Machine.execFaultReport ext s
  | .fatalRecordStore => Sys2Proof.Machine.execFatalRecordStore s
  | .promotionSecondRollover => Sys2Proof.Machine.execPromotionSecondRollover s
  | .faultWindowExpiry n => Sys2Proof.Machine.execFaultWindowExpiry n s
  | .faultAckDefault w => Sys2Proof.Machine.execFaultAckDefault w s
  | .faultAckReset w => Sys2Proof.Machine.execFaultAckReset w s
  | .faultAckForceOff w => Sys2Proof.Machine.execFaultAckForceOff w s
  | .faultFirstClr w => Sys2Proof.Machine.execFaultFirstClr w s
  | .faultInjArm w => Sys2Proof.Machine.execFaultInjArm w s
  | .faultFlogDataRead => Sys2Proof.Machine.execFaultFlogDataRead s
  | .wideRegisterLowRead off => Sys2Proof.Machine.execWideRegisterLowRead off s
  | .registerWrite off data => Sys2Proof.Machine.execRegisterWrite off data s
  | .paddockQuiet p => Sys2Proof.Machine.execPaddockQuiet p s
  | .paddockRestoreDone p => Sys2Proof.Machine.execPaddockRestoreDone p s
  | .paddockWarmRestore p => Sys2Proof.Machine.execPaddockWarmRestore p s
  | .splitJoinMessage p m => Sys2Proof.Machine.execSplitJoinMessage p m s
  | .splitJoinRepeat p => Sys2Proof.Machine.execSplitJoinRepeat p s
  | .governorPeriod => Sys2Proof.Machine.execGovernorPeriod s
  | .domainRampDone d milliVolt => Sys2Proof.Machine.execDomainRampDone d milliVolt s
  | .clkStoppedSource p => Sys2Proof.Machine.execClkStoppedSource p s
  | .gaitModuleWWrite w => Sys2Proof.Machine.execGaitModuleWWrite w s
  | .temperatureSample m code railsAgree moved => Sys2Proof.Machine.execTemperatureSample m code railsAgree moved s
  | .oeOvertempRestart n => Sys2Proof.Machine.execOeOvertempRestart n s
  | .thermMaskCmd w => Sys2Proof.Machine.execThermMaskCmd w s
  | .inputPowerSample milliVolt tenMilliAmp deciWatt => Sys2Proof.Machine.execInputPowerSample milliVolt tenMilliAmp deciWatt s
  | .vdomFault d milliVolt => Sys2Proof.Machine.execVdomFault d milliVolt s
  | .powerOn => Sys2Proof.Machine.execPowerOn s
  | .powerRemoved => Sys2Proof.Machine.execPowerRemoved s
  | .resetCtrlWarm w => Sys2Proof.Machine.execResetCtrlWarm w s
  | .resetCtrlCold w => Sys2Proof.Machine.execResetCtrlCold w s
  | .perstAssert => Sys2Proof.Machine.execPerstAssert s
  | .perstDeassert => Sys2Proof.Machine.execPerstDeassert s
  | .rootLock => Sys2Proof.Machine.execRootLock s
  | .refLost => Sys2Proof.Machine.execRefLost s
  | .pllUnlock => Sys2Proof.Machine.execPllUnlock s
  | .holdoverEnd => Sys2Proof.Machine.execHoldoverEnd s
  | .unitReady f u => Sys2Proof.Machine.execUnitReady f u s
  | .unitNotReady f u => Sys2Proof.Machine.execUnitNotReady f u s
  | .pilotToneWindow n f tones wrong => Sys2Proof.Machine.execPilotToneWindow n f tones wrong s
  | .laserPowerMeasure n f power => Sys2Proof.Machine.execLaserPowerMeasure n f power s
  | .spareStatPoll k answer => Sys2Proof.Machine.execSpareStatPoll k answer s
  | .laserSidebandTransaction cmd arg answers => Sys2Proof.Machine.execLaserSidebandTransaction cmd arg answers s
  | .loopUpdate n loops => Sys2Proof.Machine.execLoopUpdate n loops s
  | .loopLimit n loop => Sys2Proof.Machine.execLoopLimit n loop s
  | .ringSweepDone p rx k locked => Sys2Proof.Machine.execRingSweepDone p rx k locked s
  | .portStart p => Sys2Proof.Machine.execPortStart p s
  | .portStartTimeout p => Sys2Proof.Machine.execPortStartTimeout p s
  | .marginTestDone p rx k errs fom0 => Sys2Proof.Machine.execMarginTestDone p rx k errs fom0 s
  | .liveMarginEstimate p k fom => Sys2Proof.Machine.execLiveMarginEstimate p k fom s
  | .migrationRequest p old spare => Sys2Proof.Machine.execMigrationRequest p old spare s
  | .spareTrainingDone p spare errs fom => Sys2Proof.Machine.execSpareTrainingDone p spare errs fom s
  | .flitBoundarySwitch p rx => Sys2Proof.Machine.execFlitBoundarySwitch p rx s
  | .lossOfLock p k => Sys2Proof.Machine.execLossOfLock p k s
  | .oeReset n w => Sys2Proof.Machine.execOeReset n w s
  | .calSnapshot n w => Sys2Proof.Machine.execCalSnapshot n w s
  | .flitReceive p f => Sys2Proof.Machine.execFlitReceive p f s
  | .replayTimeout p => Sys2Proof.Machine.execReplayTimeout p s
  | .ackCoalesceTimeout p => Sys2Proof.Machine.execAckCoalesceTimeout p s
  | .creditReturnTimeout p vc => Sys2Proof.Machine.execCreditReturnTimeout p vc s
  | .controlMessageRepeat p seq => Sys2Proof.Machine.execControlMessageRepeat p seq s
  | .linkTraining p rtts farCoalesced => Sys2Proof.Machine.execLinkTraining p rtts farCoalesced s
  | .linkDown p => Sys2Proof.Machine.execLinkDown p s
  | .lockRuleHoldExpiry p => Sys2Proof.Machine.execLockRuleHoldExpiry p s
  | .errorRateWindow p codewords uncorrectable corrected replays => Sys2Proof.Machine.execErrorRateWindow p codewords uncorrectable corrected replays s
  | .portDownWrite p w => Sys2Proof.Machine.execPortDownWrite p w s
  | .lightSleepEntry p => Sys2Proof.Machine.execLightSleepEntry p s
  | .deepSleepEntry p => Sys2Proof.Machine.execDeepSleepEntry p s
  | .sleepWake p => Sys2Proof.Machine.execSleepWake p s
  | .deepSleepRetrack p => Sys2Proof.Machine.execDeepSleepRetrack p s
  | .adaptationStep p k before after => Sys2Proof.Machine.execAdaptationStep p k before after s
  | .laneFloorRetrain p k => Sys2Proof.Machine.execLaneFloorRetrain p k s
  | .d2dParity n up => Sys2Proof.Machine.execD2dParity n up s
  | .helloTimer p => Sys2Proof.Machine.execHelloTimer p s
  | .hello p h => Sys2Proof.Machine.execHello p h s
  | .fabricDiscoverWrite w => Sys2Proof.Machine.execFabricDiscoverWrite w s
  | .discover p master epoch => Sys2Proof.Machine.execDiscover p master epoch s
  | .reportMsg p r => Sys2Proof.Machine.execReportMsg p r s
  | .discoveryQuietExpiry plan => Sys2Proof.Machine.execDiscoveryQuietExpiry plan s
  | .assignMsg p target id => Sys2Proof.Machine.execAssignMsg p target id s
  | .tableMsg p t => Sys2Proof.Machine.execTableMsg p t s
  | .commitMsg p epoch => Sys2Proof.Machine.execCommitMsg p epoch s
  | .portStateReport p => Sys2Proof.Machine.execPortStateReport p s
  | .requestMsg p k => Sys2Proof.Machine.execRequestMsg p k s
  | .responseMsg p k => Sys2Proof.Machine.execResponseMsg p k s
  | .transportResend flow txid => Sys2Proof.Machine.execTransportResend flow txid s
  | .transportLost flow => Sys2Proof.Machine.execTransportLost flow s
  | .resv p r => Sys2Proof.Machine.execResv p r s
  | .heartbeatTimer => Sys2Proof.Machine.execHeartbeatTimer s
  | .heartbeat h => Sys2Proof.Machine.execHeartbeat h s
  | .heartbeatSilence wire link => Sys2Proof.Machine.execHeartbeatSilence wire link s
  | .halterLineChange railP railN => Sys2Proof.Machine.execHalterLineChange railP railN s
  | .halterBroken => Sys2Proof.Machine.execHalterBroken s
  | .halterWhole => Sys2Proof.Machine.execHalterWhole s
  | .mirror items commit => Sys2Proof.Machine.execMirror items commit s
  | .mirrorAck epoch => Sys2Proof.Machine.execMirrorAck epoch s
  | .mirrorAckTimeout => Sys2Proof.Machine.execMirrorAckTimeout s
  | .pairCtl code => Sys2Proof.Machine.execPairCtl code s
  | .resync w => Sys2Proof.Machine.execResync w s
  | .takeoverPhaseDone phase => Sys2Proof.Machine.execTakeoverPhaseDone phase s
  | .mi3cRegisterRead off => Sys2Proof.Machine.execMi3cRegisterRead off s
  | .mi3cEntdaa addr => Sys2Proof.Machine.execMi3cEntdaa addr s
  | .refclkStart => Sys2Proof.Machine.execRefclkStart s
  | .hostifResetDone => Sys2Proof.Machine.execHostifResetDone s
  | .trainingTimeout p => Sys2Proof.Machine.execTrainingTimeout p s
  | .releaseReply t => Sys2Proof.Machine.execReleaseReply t s

end Sys2Proof.Machine
end

