-- ==== Sys2Proof/Machine/Tick.lean ====
section
/-! DEFINITION. What passes of time where no command waits (R27, R429; log 3): 42 ROOT periods. -/

namespace Sys2Proof.Machine

/-- What a link does by itself: the fabric layer takes what its receive buffers hold, what waits goes out, and an awake direction with
nothing to send sends an idle flit (R345, R351; log 126, log 128). -/
def linkTick (b : Block) (l : Nat) : Block :=
  if (lpGet b l).st ≠ 2 then b
  else
    let n := b.out.length
    let b := drain (settleOwed (emptyBufs b l) l) l
    if (lpGet b l).txSleep = 0 ∧ b.out.length = n then sendIdle b l else b

/-- 42 ROOT periods pass: device time adds 5 ns, every loaded paddock's core clock counts, the links go on, and per-engine resets in
progress end (R325; log 129); while ROOT is stopped, nothing does. -/
def tick (b : Block) : Block :=
  if rootRuns b then
    let b := { b with
      time := b.time + 5
      pads := tmapAll Pad.init b.pads (fun _ (x : Pad) => if x.st = PadState.free then x else { x with cycles := x.cycles + tickTenths x.run }) }
    (List.range 8).foldl engineDone ((b.lnk.map Prod.fst).foldl linkTick b)
  else b

end Sys2Proof.Machine
end

