-- ==== Sys2Proof/Safety.lean ====
section
/-! DEFINITION. The terms in which claims are stated: the outcome of a command, when a core command issues and what its issue
leaves, what a change leaves alone, and the canonical form of the addressed memories. -/

namespace Sys2Proof.Machine

/-- A command completes: its meaning answers a next state that keeps the queue of waiting commands. -/
def Completes (c : Instr) (s : State) : Prop := ∃ t, exec c s = .next t ∧ t.pending = s.pending

/-- The canonical form of the addressed memories: the cisterns and HBM, the flash and the settings store, whose unlisted bytes read
0, and the stored fields of BAR0. -/
def Memory.wf (b : Block) : Bool :=
  twf 0 b.die.cist && twf 0 b.hbm.mem && twf 0 b.sec.flash && twf 0 b.sec.store && twf 0 b.regs

/-! ### Issue of a core command -/

/-- The PC of a thread. -/
def pcOf (b : Block) (t : Thr) : Word := (thrGet b (thrKey t)).pc

/-- The line of a thread's next instruction, from the instruction buffer or from the cistern (R49). -/
def heldLine (b : Block) (t : Thr) : Line :=
  match (coreGet b (coreKey t.core)).ibuf.find? (fun e => e.1 = (pcOf b t).toNat / 64) with
  | some e => e.2
  | none => cline b (coreKey t.core) ((pcOf b t).toNat / 64)

/-- The thread's next instruction is `i`, it can issue, and its line holds no error (R41 to R43, R49, R78, R147). -/
def Issues (b : Block) (t : Thr) (i : Instr) (uses : List Nat) : Prop :=
  canIssue b (thrKey t) uses = true ∧ pcOk b (coreKey t.core) (pcOf b t) = true ∧
  encodeCore i = some (heldWord b (coreKey t.core) (pcOf b t)) ∧
  ∀ j < 8, wordErr b (coreKey t.core) (8 * ((pcOf b t).toNat / 64) + j) = 0

/-- Control can go on at the next instruction (R147). -/
def NextOk (b : Block) (t : Thr) : Prop := pcOk b (coreKey t.core) (pcOf b t + 8) = true

/-- What the issue of an instruction leaves before its effect: its line is the most recent of the instruction buffer, and the
issuing thread and PC are noted (R41, R49, R147). -/
def issued (b : Block) (t : Thr) : Block :=
  noteIssue (coreMod b (coreKey t.core) (fun c => { c with ibuf := ibufTouch c.ibuf ((pcOf b t).toNat / 64) (heldLine b t) })) (thrKey t)

/-! ### What a change leaves alone -/

/-- Every thread but `t`, every core but its own, and everything of the block beside threads and cores is the same: every byte of
every memory, every register of BAR0, the mesh, the sync memories and whatever leaves the module. -/
def OnlyThread (b c : Block) (t : Thr) : Prop :=
  (∀ k, k ≠ thrKey t → thrGet c k = thrGet b k) ∧ (∀ k, k ≠ coreKey t.core → coreGet c k = coreGet b k) ∧
  { c with die := { c.die with thr := b.die.thr, cores := b.die.cores } } = b

/-- The core of a thread is `x`, but for its instruction buffer and the thread that issued last (R41, R49). -/
def CoreIs (c : Block) (t : Thr) (x : CoreS) : Prop :=
  { coreGet c (coreKey t.core) with ibuf := x.ibuf, last := x.last } = x

/-- The core of a thread keeps its vector registers, its accumulators, its generator and everything else that its issue does not
note. -/
def SameCore (b c : Block) (t : Thr) : Prop := CoreIs c t (coreGet b (coreKey t.core))

/-- The scalar registers of `g` are those of `h` with `v` written to register `d`; s0 reads 0 and discards the write (R149). -/
def WritesS (h g : Thread) (d : BitVec 5) (v : Word) : Prop :=
  ∀ r, g.rs r = if r = 0 then 0 else if r = d then v else h.rs r

/-- The thread went on to `pc`: it is ready there, and beside its scalar registers nothing of it but `prev` differs. -/
def WentTo (b c : Block) (t : Thr) (pc : Word) : Prop :=
  { thrGet c (thrKey t) with s := (thrGet b (thrKey t)).s } = { thrGet b (thrKey t) with st := .ready, pc := pc, prev := pcOf b t }

/-- The thread at its next instruction: it is ready there, and nothing else of it but `prev` differs. -/
def nextThr (b : Block) (t : Thr) : Thread := { thrGet b (thrKey t) with st := .ready, pc := pcOf b t + 8, prev := pcOf b t }

/-- The thread at its next instruction as it begins to rest there: the nap threshold in force runs from now (R204, R207). -/
def restThr (b : Block) (t : Thr) : Thread :=
  { nextThr b t with idleAt := b.time, napAfter := 100 * max 5 (regFld b 0x30400 8 16) }

/-- The row of the table that a mesh packet travels by, in the order write, read request, read response, acknowledgement, semaphore
operation (R62, R183). -/
def MBody.kind : MBody → Nat
  | .write _ _ _ => 0
  | .readReq _ _ _ _ _ => 1
  | .readResp _ _ _ => 2
  | .ack _ => 3
  | .sem _ _ _ _ _ => 4

/-- The command of a packet's row moves it next: it can make its move, and no packet of its source, destination and row goes first
(R67). -/
def Moves (b : Block) (m : MPkt) : Prop := nextPkt b m.src m.dst (fun y => decide (y.kind = m.body.kind)) = some m

/-- The input that an output of its router has granted last, after a packet's move (R68). -/
def grantsAfter (b : Block) (m : MPkt) : Tbl Nat :=
  tput 0 b.die.grants (outKey m.where_ (m.output m.head) m.body.rsp) (m.input m.head)

/-- No word of a cistern line holds an error (R78). -/
def CleanLine (b : Block) (ck l : Nat) : Prop := ∀ j < 8, wordErr b ck (8 * l + j) = 0

/-- Bytes `f 0` to `f (n - 1)` were stored at `a` of the cistern of core `k0` by the thread: every other byte of every cistern, and
everything of the block beside threads, cores and cisterns, is as before; a word written whole holds no error, and every other
word holds what it held. -/
def Stored (b c : Block) (t : Thr) (k0 a n : Nat) (f : Nat → Byte) : Prop :=
  (∀ ck i, i < 40960 → cbyte c ck i = if ck = k0 ∧ a ≤ i ∧ i < a + n then f (i - a) else cbyte b ck i) ∧
  (∀ ck w, w < 5120 → wordErr c ck w = if ck = k0 ∧ a ≤ 8 * w ∧ 8 * w + 8 ≤ a + n then 0 else wordErr b ck w) ∧
  (∀ k, k ≠ thrKey t → thrGet c k = thrGet b k) ∧ (∀ k, k ≠ coreKey t.core → coreGet c k = coreGet b k) ∧
  { c with die := { c.die with thr := b.die.thr, cores := b.die.cores, cist := b.die.cist, cistErr := b.die.cistErr } } = b

/-- Every other thread, and every core but the thread's own, is as before. -/
def OthersKeep (b c : Block) (t : Thr) : Prop :=
  (∀ k, k ≠ thrKey t → thrGet c k = thrGet b k) ∧ (∀ k, k ≠ coreKey t.core → coreGet c k = coreGet b k)

/-- The thread is in a paddock whose cores issue. -/
def InPad (b : Block) (k p : Nat) : Prop := padOf b k = some p ∧ (padGet b p).st.runs = true

/-- Results `r 0`, `r 1`, … were written to vector register `d` as elements of a format, element 0 lowest, and the flags of all of
them added to `ASTAT`; the thread went on, and nothing else differs (R120, R143). -/
def VectorResult (b c : Block) (t : Thr) (d : Nat) (f : FmtCode) (r : Nat → Nat × Flags) : Prop :=
  (∃ v, CoreIs c t ((coreGet b (coreKey t.core)).wv d v) ∧ ∀ i < f.perReg, elem v f.width i = (r i).1) ∧
  thrGet c (thrKey t) = { nextThr b t with
    astat := (thrGet b (thrKey t)).astat ||| (allFlags ((List.range f.perReg).map r)).astat } ∧
  OnlyThread b c t

/-- A trap of the instruction at the thread's PC was taken: handled, the thread goes on at `TVEC` with the cause, the PC and the
value saved; otherwise it is faulted and `CORE_TRAP` raised (R177, R463).  Nothing else differs. -/
def TrapTaken (b c : Block) (t : Thr) (tr : Trap) (val : Word) : Prop :=
  let h := thrGet b (thrKey t)
  (if tr.handled = true ∧ h.tvec ≠ 0 ∧ h.tcause = 0 then
    thrGet c (thrKey t) = { h with st := .ready, pc := h.tvec, prev := h.pc, tcause := BitVec.ofNat 32 tr.code, tpc := h.pc, tval := val } ∧
    c.reports = b.reports
  else
    thrGet c (thrKey t) = { h with st := .faulted, prev := h.pc } ∧
    ∃ r, c.reports = b.reports ++ [r] ∧ r.source = 0x108 ∧ r.cls = contained ∧ r.d0 = placeD0 b (coreKey t.core) ∧
      r.d1 = at_ 19 t.th.val ||| at_ 21 tr.code ∧ r.d2.toNat = h.pc.toNat % 65536 ∧ r.d3 = 0) ∧
  (∀ k, k ≠ thrKey t → thrGet c k = thrGet b k) ∧ (∀ k, k ≠ coreKey t.core → coreGet c k = coreGet b k) ∧ SameCore b c t ∧
  { c with reports := b.reports, die := { c.die with thr := b.die.thr, cores := b.die.cores } } = b

/-! ### What reaches the host -/

/-- Everything of the block beside the host interface and what has been put out is the same. -/
def OnlyHost (b c : Block) : Prop := { c with host := b.host, out := b.out } = b

/-- The host interface holds the same, but for ring pair `q`. -/
def OnlyPair (b c : Block) (q : Nat) : Prop :=
  (∀ r, r ≠ q → rpGet c r = rpGet b r) ∧ { c.host with pairs := b.host.pairs } = b.host

/-- HOSTIF can write the completion of a descriptor of pair `q` at once, and sends no interrupt for it: the module is not paired, the
pair is enabled, nothing waits before it, its completion ring has room, and its vector is off (R294, R301, R304, R306). -/
def CanComplete (b : Block) (q : Nat) : Prop :=
  b.pair.role = 0 ∧ unsettled b = false ∧ ringLive b q = true ∧ (rpGet b q).replay = [] ∧ cqRoom b q = true ∧
  bit (ringReg b q 0x2000C) 15 = false

/-- The completion entry that pair `q` writes next (R286, R294). -/
def compOut (b : Block) (q tag status dtype obj detail : Nat) : Out :=
  .completion q ((rpGet b q).cqTail % cqSize b q)
    (compBits tag status dtype (128 * phase (rpGet b q).cqTail (cqSize b q)) (rpGet b q).sqHead obj detail)

/-- Pair `q` after it has written one completion that used up `k` reserved entries; a fetch that waited for space goes on where the
entry used fewer than were reserved for it (R284). -/
def compPair (b : Block) (q k : Nat) (x : RPair) : RPair :=
  let left := max (x.reserved - k) (pairTurns b q).length
  { x with cqTail := (x.cqTail + 1) % 2 ^ 32, reserved := left, cqFull := x.cqFull && decide (x.reserved ≤ left + 1) }

/-- Pair `q` after the check of the only descriptor that waits there. -/
def checked (x : RPair) : RPair := { x with fetched := [], order := x.order.drop 1 }

/-- The event entry that the module writes next (R299). -/
def eventOut (b : Block) (code unit data detail : Nat) : Out :=
  .event (b.host.evtTail % evtSize b) (BitVec.ofNat 256 (code + 2 ^ 16 * unit + 2 ^ 32 * data + 2 ^ 64 * (b.time % 2 ^ 64) + 2 ^ 128 * detail +
    2 ^ 255 * phase b.host.evtTail (evtSize b)))

/-- An event can be written at once, with no interrupt: the event ring is enabled, has room and owes no `EVENTS_LOST` (R299 to R301). -/
def CanEvent (b : Block) : Prop :=
  b.host.evtOn = true ∧ hostStopped b = false ∧ evtRoom b = true ∧ regFld b 0x20118 16 16 = 0 ∧ bit (regGet b 0x20100) 31 = false

/-- A well-formed descriptor `d` of a type is the next, and the only one, that the module checks for pair `q`, no load
descriptor of another pair that was fetched before it goes first, and its completion can be written at once (R224, R284, R285, R293). -/
def AtHead (b : Block) (q : Nat) (d : Line) (ty : Nat) : Prop :=
  CanComplete b q ∧ (rpGet b q).fetched = [d] ∧ (rpGet b q).fence = none ∧ (rpGet b q).reading = none ∧ fld d 0 8 = ty ∧
  formOk b d = true ∧ (isLoad d = true → loadsFirst b q = true)

/-- The descriptor `d` of pair `q` completed at its check with a status, object and detail, before whatever `more` says. -/
def DescDone (b c : Block) (q : Nat) (d : Line) (status obj detail : Nat) (more : List Out) : Prop :=
  c.out = b.out ++ compOut b q (fld d 32 32) status (fld d 0 8) obj detail :: more ∧
  rpGet c q = compPair c q 1 (checked (rpGet b q)) ∧ OnlyPair b c q

/-- The descriptor of pair `q` passed its check, and its only completion is still to come. -/
def DescOpen (b c : Block) (q : Nat) : Prop :=
  rpGet c q = { checked (rpGet b q) with opens := (rpGet b q).opens + 1 } ∧ OnlyPair b c q

/-- A descriptor of pair `q` that went on completed, with a cookie, status, object and detail. -/
def WorkDone (b c : Block) (q k status obj detail : Nat) : Prop :=
  c.out = b.out ++ [compOut b q (k % 2 ^ 32) status (k / 2 ^ 32 % 256) obj detail] ∧
  rpGet c q = compPair c q 1 { rpGet b q with opens := (rpGet b q).opens - 1 } ∧ OnlyPair b c q

/-- Every paddock number but `p` is as before. -/
def OnlyPad (b c : Block) (p : Nat) : Prop := ∀ r, r ≠ p → padGet c r = padGet b r

/-! ### What happens on a port -/

/-- A port has gone down with a cause and, where it can, started again: it holds nothing of its link but the round trip that training
took, and nothing of its neighbour, it is not ready, and the fault of its down is the last one reported (R356, R357). -/
def PortDown (c : Block) (p cause : Nat) : Prop :=
  (∃ t, lpGet c p = { LPort.init with st := if canStart c p then 1 else 0, rtt := t }) ∧ fpGet c p = FPort.init ∧ isReady c 5 p = false ∧
  regFld c (linkBase p + 4) 16 4 = cause ∧ c.reports.getLast?.map (fun r => (r.source, r.cls, r.d0)) = some (0x380 + p, contained, at_ 0 cause)

/-- What a flit says of itself: type, sequence, channel, payload (R341, R342). -/
def flitHead (f : Flit) : Nat × Nat × Bool × List Byte := (fld f.header 13 2, fld f.header 0 12, bit f.header 12, f.payload)

/-- A packet was sent on a port, and after it nothing was put out but flits of that port. -/
def PacketSent (b c : Block) (p : Nat) (m : FabMsg) : Prop := ∃ fs : List (Flit × List (Nat × List Int)),
  c.out = b.out ++ .packet p m :: fs.map (fun e => Out.flit p e.1 e.2)

/-- Everything of the block is the same but the fabric layer, the link on the ports of a list, and what has been put out. -/
def OnlyFabric (b c : Block) (ports : List Nat) : Prop :=
  (∀ j, j ∉ ports → lpGet c j = lpGet b j) ∧ { c with out := b.out, lnk := b.lnk, fab := b.fab } = b

/-- A command answers a next state that keeps the queue and whose block has a property. -/
def Effect (i : Instr) (s : State) (P : Block → Prop) : Prop := ∃ c, exec i s = .next { s with blk := c } ∧ P c

end Sys2Proof.Machine
end

