-- ==== Sys2Proof/Certificates/Slice0/Obligations.lean ====
section
/-! DEFINITION. The statements for the provers. -/

open Sys2Proof Sys2Proof.Machine

/-! ### The queue -/

/-- A step with a command at the front of the queue is that command's meaning with the queue's rest. -/
def Obligations.StepRunsFront : Prop :=
  ∀ (c : Instr) (r : List Instr) (s : State), step { s with pending := c :: r } = exec c { s with pending := r }

/-- R429, R27, R345: device time adds 5 ns every 42 ROOT periods, which is what a step of an empty queue lets pass (log 3, the model's
choice), and the core clocks of loaded paddocks count; while ROOT is stopped nothing changes; and an awake link that is up and has
nothing to say sends an idle flit. -/
def Obligations.IdleStepTicks : Prop :=
  ∀ (s : State), s.pending = [] → (rootRuns s.blk = false → step s = .next s) ∧
    (rootRuns s.blk = true → (∀ n < 8, (engGet s.blk n).resetting = false) →
      ((∀ l, (lpGet s.blk l).st ≠ 2) → ∃ c, step s = .next { s with blk := c } ∧ c.time = s.blk.time + 5 ∧
        (∀ p, padGet c p = if (padGet s.blk p).st = .free then padGet s.blk p
          else { padGet s.blk p with cycles := (padGet s.blk p).cycles + [21, 42, 60].getD (padGet s.blk p).run 70 }) ∧
        { c with time := s.blk.time, pads := s.blk.pads } = s.blk) ∧
      (∀ l x, s.blk.lnk = [(l, x)] → x.st = 2 → x.txSleep = 0 → x.txq = [] → x.bufReq = [] → x.bufRsp = [] → x.owedReq < 32 → x.owedRsp < 32 →
        x.owed = 0 → ∃ c g u, step s = .next { s with blk := c } ∧ c.time = s.blk.time + 5 ∧ c.out = s.blk.out ++ [.flit l g u] ∧
          flitHead g = (0, 0, false, List.replicate 240 0) ∧ (lpGet c l).flits = x.flits + 1 ∧ (lpGet c l).replay = x.replay))

/-- Every command of the table completes with the queue as it was; only an access to the CXL.mem window can fault, outside the
window, and no command is refused. -/
def Obligations.EveryCommandKeepsQueue : Prop :=
  ∀ (i : Instr) (s : State), Effect i s (fun _ => True) ∨
    (exec i s = .fault .outsideWindow ∧ ((∃ o, i = .cxlMemRead o) ∨ ∃ o d p, i = .cxlMemWrite o d p))

/-! ### The words of the core instructions (R146, R150) -/

/-- Decoding the word of a core command gives the command, at every value of its fields; and a word that decodes to a command is that
command's word, so that no bit of a word is dropped and no two words spell one command. -/
def Obligations.CoreWordsAgree : Prop :=
  (∀ (t : Thr) (i : Instr) (w : Dword), encodeCore i = some w → ∃ op x, coreOp i = some (op, x) ∧
     decodeCore t w = opcodeMap op.toNat t x ∧ wordFields w = x ∧ ((∃ u, opcodeMap op.toNat u x = some i))) ∧
  (∀ (t : Thr) (i : Instr) (w : Dword), decodeCore t w = some i → encodeCore i = some w)

/-! ### Scalar instructions and branches (R147, R149, R151, R152) -/

/-- The register and the immediate forms: sD is the result of R151, with IMM as the second operand of the immediate forms, and everything
else stays. -/
def Obligations.ScalarResults : Prop :=
  (∀ e ∈ ([(.add, fun a b => a + b), (.sub, fun a b => a - b), (.andOp, fun a b => a &&& b), (.orOp, fun a b => a ||| b),
       (.xor, fun a b => a ^^^ b), (.shl, fun a b => a <<< (b.toNat % 32)), (.shr, fun a b => a >>> (b.toNat % 32)),
       (.sra, fun a b => a.sshiftRight (b.toNat % 32)), (.slt, fun a b => if a.toInt < b.toInt then 1 else 0),
       (.sltu, fun a b => if a.toNat < b.toNat then 1 else 0), (.mul, fun a b => a * b),
       (.mulh, fun a b => BitVec.ofInt 32 (a.toInt * b.toInt / 2 ^ 32)),
       (.mulhu, fun a b => BitVec.ofNat 32 (a.toNat * b.toNat / 2 ^ 32)), (.minOp, fun a b => if b.toInt < a.toInt then b else a),
       (.maxOp, fun a b => if a.toInt < b.toInt then b else a)] : List ((Thr → Fields → Instr) × (Word → Word → Word))),
     ∀ (t : Thr) (x : Fields) (s : State), x.mod = 0 → x.imm = 0 → Issues s.blk t (e.1 t x) [] → NextOk s.blk t →
       Effect (e.1 t x) s (fun c =>
         WritesS (thrGet s.blk (thrKey t)) (thrGet c (thrKey t)) x.d
           (e.2 ((thrGet s.blk (thrKey t)).rs x.a) ((thrGet s.blk (thrKey t)).rs x.b)) ∧
         WentTo s.blk c t (pcOf s.blk t + 8) ∧ OnlyThread s.blk c t ∧ SameCore s.blk c t)) ∧
  (∀ e ∈ ([(.addi, fun a b => a + b), (.subi, fun a b => a - b), (.andi, fun a b => a &&& b), (.ori, fun a b => a ||| b),
       (.xori, fun a b => a ^^^ b), (.shli, fun a b => a <<< (b.toNat % 32)), (.shri, fun a b => a >>> (b.toNat % 32)),
       (.srai, fun a b => a.sshiftRight (b.toNat % 32)), (.slti, fun a b => if a.toInt < b.toInt then 1 else 0),
       (.sltui, fun a b => if a.toNat < b.toNat then 1 else 0), (.muli, fun a b => a * b),
       (.mulhi, fun a b => BitVec.ofInt 32 (a.toInt * b.toInt / 2 ^ 32)),
       (.mulhui, fun a b => BitVec.ofNat 32 (a.toNat * b.toNat / 2 ^ 32)), (.mini, fun a b => if b.toInt < a.toInt then b else a),
       (.maxi, fun a b => if a.toInt < b.toInt then b else a)] : List ((Thr → Fields → Instr) × (Word → Word → Word))),
     ∀ (t : Thr) (x : Fields) (s : State), x.b = 0 → x.mod = 0 → Issues s.blk t (e.1 t x) [] → NextOk s.blk t →
       Effect (e.1 t x) s (fun c =>
         WritesS (thrGet s.blk (thrKey t)) (thrGet c (thrKey t)) x.d (e.2 ((thrGet s.blk (thrKey t)).rs x.a) x.imm) ∧
         WentTo s.blk c t (pcOf s.blk t + 8) ∧ OnlyThread s.blk c t ∧ SameCore s.blk c t))

/-- The conditional branches: control goes to PC + 8 × IMM, signed, where the condition of R152 holds, and to the next instruction
where it does not. -/
def Obligations.BranchResults : Prop :=
  ∀ e ∈ ([(.beq, fun a b => decide (a = b)), (.bne, fun a b => decide (a ≠ b)), (.blt, fun a b => decide (a.toInt < b.toInt)),
      (.bge, fun a b => decide (b.toInt ≤ a.toInt)), (.bltu, fun a b => decide (a.toNat < b.toNat)),
      (.bgeu, fun a b => decide (b.toNat ≤ a.toNat))] : List ((Thr → Fields → Instr) × (Word → Word → Bool))),
    ∀ (t : Thr) (x : Fields) (s : State), x.d = 0 → x.mod = 0 → Issues s.blk t (e.1 t x) [] →
      let h := thrGet s.blk (thrKey t)
      let target := if e.2 (h.rs x.a) (h.rs x.b) then pcOf s.blk t + 8 * x.imm else pcOf s.blk t + 8
      pcOk s.blk (coreKey t.core) target = true →
      Effect (e.1 t x) s (fun c =>
        (∀ r, (thrGet c (thrKey t)).rs r = h.rs r) ∧ WentTo s.blk c t target ∧ OnlyThread s.blk c t ∧ SameCore s.blk c t)

/-- `JAL` and `JALR` link PC + 8 and go to PC + 8 × IMM or to sA + IMM, sA read before the link. -/
def Obligations.JumpResults : Prop :=
  ∀ (t : Thr) (x : Fields) (s : State), x.b = 0 → x.mod = 0 →
    let h := thrGet s.blk (thrKey t)
    (x.a = 0 → Issues s.blk t (.jal t x) [] → pcOk s.blk (coreKey t.core) (pcOf s.blk t + 8 * x.imm) = true →
      Effect (.jal t x) s (fun c =>
        WritesS h (thrGet c (thrKey t)) x.d (pcOf s.blk t + 8) ∧ WentTo s.blk c t (pcOf s.blk t + 8 * x.imm) ∧
        OnlyThread s.blk c t ∧ SameCore s.blk c t)) ∧
    (Issues s.blk t (.jalr t x) [] → pcOk s.blk (coreKey t.core) (h.rs x.a + x.imm) = true →
      Effect (.jalr t x) s (fun c =>
        WritesS h (thrGet c (thrKey t)) x.d (pcOf s.blk t + 8) ∧ WentTo s.blk c t (h.rs x.a + x.imm) ∧
        OnlyThread s.blk c t ∧ SameCore s.blk c t))

/-! ### Cistern instructions (R73, R75, R79, R153, R154) -/

/-- `LD` and `LDV`: the bytes at sA + IMM modulo 2^16, least significant first, zero- or sign-extended to sD, or to the low bytes of
vD with its other bytes 0. -/
def Obligations.CisternLoads : Prop :=
  ∀ (t : Thr) (x : Fields) (s : State), x.b = 0 → NextOk s.blk t →
    let h := thrGet s.blk (thrKey t)
    let a := (h.rs x.a + x.imm).toNat % 65536
    CleanLine s.blk (coreKey t.core) (a / 64) →
    (∀ n ∈ [1, 2, 4], fld x.mod 0 2 = Nat.log2 n → x.mod.toNat < 8 → a + n ≤ 40960 → a % 64 + n ≤ 64 → Issues s.blk t (.ld t x) [] →
      let v : BitVec (8 * n) := BitVec.ofNat _ (cbytes s.blk (coreKey t.core) a n)
      Effect (.ld t x) s (fun c =>
        WritesS h (thrGet c (thrKey t)) x.d (if x.mod.getLsbD 2 then v.signExtend 32 else v.setWidth 32) ∧
        WentTo s.blk c t (pcOf s.blk t + 8) ∧ OnlyThread s.blk c t ∧ SameCore s.blk c t)) ∧
    (∀ n, x.mod.toNat + 1 = n → n ≤ 64 → x.d.toNat < 16 → a + n ≤ 40960 → a % 64 + n ≤ 64 → Issues s.blk t (.ldv t x) [x.d.toNat] →
      Effect (.ldv t x) s (fun c =>
        thrGet c (thrKey t) = nextThr s.blk t ∧ OnlyThread s.blk c t ∧
        CoreIs c t ((coreGet s.blk (coreKey t.core)).wv x.d.toNat (BitVec.ofNat 512 (cbytes s.blk (coreKey t.core) a n)))))

/-- `ST` and `STV`: the low bytes of sB, or bytes 0 to length - 1 of vB, at sA + IMM modulo 2^16, in a line at or above the
read-only boundary; every other byte of every memory stays. -/
def Obligations.CisternStores : Prop :=
  ∀ (t : Thr) (x : Fields) (s : State), x.d = 0 → NextOk s.blk t →
    let h := thrGet s.blk (thrKey t)
    let a := (h.rs x.a + x.imm).toNat % 65536
    CleanLine s.blk (coreKey t.core) (a / 64) → (coreGet s.blk (coreKey t.core)).wB ≤ a / 64 →
    (∀ n ∈ [1, 2, 4], x.mod.toNat = Nat.log2 n → a + n ≤ 40960 → a % 64 + n ≤ 64 → Issues s.blk t (.st t x) [] →
      Effect (.st t x) s (fun c =>
        Stored s.blk c t (coreKey t.core) a n (fun i => (h.rs x.b).extractLsb' (8 * i) 8) ∧
        thrGet c (thrKey t) = nextThr s.blk t ∧ SameCore s.blk c t)) ∧
    (∀ n, x.mod.toNat + 1 = n → n ≤ 64 → x.b.toNat < 16 → a + n ≤ 40960 → a % 64 + n ≤ 64 → Issues s.blk t (.stv t x) [x.b.toNat] →
      Effect (.stv t x) s (fun c =>
        Stored s.blk c t (coreKey t.core) a n (fun i => ((coreGet s.blk (coreKey t.core)).rv x.b.toNat).extractLsb' (8 * i) 8) ∧
        thrGet c (thrKey t) = nextThr s.blk t ∧ SameCore s.blk c t))

/-- A load or store that leaves the cistern or crosses a line traps with `CISTERN_RANGE`, and a store below the read-only boundary
with `CISTERN_PROTECT`, the value being the address; neither has another effect. -/
def Obligations.CisternTraps : Prop :=
  ∀ (t : Thr) (x : Fields) (s : State),
    let a := ((thrGet s.blk (thrKey t)).rs x.a + x.imm).toNat % 65536
    let low := (coreGet s.blk (coreKey t.core)).wB
    (∀ n ∈ [1, 2, 4], fld x.mod 0 2 = Nat.log2 n → 40960 < a + n ∨ 64 < a % 64 + n →
      (x.b = 0 → x.mod.toNat < 8 → Issues s.blk t (.ld t x) [] →
        Effect (.ld t x) s (fun c => TrapTaken s.blk c t .cisternRange (BitVec.ofNat 32 a))) ∧
      (x.d = 0 → x.mod.toNat < 4 → Issues s.blk t (.st t x) [] →
        Effect (.st t x) s (fun c => TrapTaken s.blk c t .cisternRange (BitVec.ofNat 32 a)))) ∧
    (∀ n, x.mod.toNat + 1 = n → n ≤ 64 → 40960 < a + n ∨ 64 < a % 64 + n →
      (x.b = 0 → x.d.toNat < 16 → Issues s.blk t (.ldv t x) [x.d.toNat] →
        Effect (.ldv t x) s (fun c => TrapTaken s.blk c t .cisternRange (BitVec.ofNat 32 a))) ∧
      (x.d = 0 → x.b.toNat < 16 → Issues s.blk t (.stv t x) [x.b.toNat] →
        Effect (.stv t x) s (fun c => TrapTaken s.blk c t .cisternRange (BitVec.ofNat 32 a)))) ∧
    (∀ n ∈ [1, 2, 4], x.mod.toNat = Nat.log2 n → a + n ≤ 40960 → a % 64 + n ≤ 64 → a / 64 < low → x.d = 0 → Issues s.blk t (.st t x) [] →
      Effect (.st t x) s (fun c => TrapTaken s.blk c t .cisternProtect (BitVec.ofNat 32 a))) ∧
    (∀ n, x.mod.toNat + 1 = n → n ≤ 64 → a + n ≤ 40960 → a % 64 + n ≤ 64 → a / 64 < low → x.d = 0 → x.b.toNat < 16 →
      Issues s.blk t (.stv t x) [x.b.toNat] →
      Effect (.stv t x) s (fun c => TrapTaken s.blk c t .cisternProtect (BitVec.ofNat 32 a)))

/-- `STRM` sets both pointers and reads ahead two data lines and the scale line, or lines, from them on, up to line 639. -/
def Obligations.StreamStart : Prop :=
  ∀ (t : Thr) (x : Fields) (s : State), x.d = 0 → x.mod = 0 → NextOk s.blk t → Issues s.blk t (.strm t x) [] →
    (∀ l < 640, CleanLine s.blk (coreKey t.core) l) →
    let h := thrGet s.blk (thrKey t)
    let p := (h.rs x.a + x.imm).toNat % 65536
    let q := (h.rs x.b).toNat % 65536
    let held := fun l : Nat => if l < 640 then [(l, cline s.blk (coreKey t.core) l)] else []
    Effect (.strm t x) s (fun c =>
      thrGet c (thrKey t) = { nextThr s.blk t with
        stream := ⟨p, q, held (p / 64) ++ held (p / 64 + 1), held (q / 64) ++ (if 56 < q % 64 then held (q / 64 + 1) else [])⟩ } ∧
      OnlyThread s.blk c t ∧ SameCore s.blk c t)

/-! ### Vector, special-function and reduction instructions (R140, R141, R155 to R157) -/

/-- `VADD`, `VSUB`, `VMUL`, `VFMA`, `VMIN` and `VMAX`: every element is the exact result rounded once, to nearest, ties to even;
`VCMP`: all ones where the predicate holds. -/
def Obligations.VectorArithmetic : Prop :=
  ∀ (t : Thr) (x : Fields) (s : State) (f : FmtCode), x.imm = 0 → x.d.toNat < 16 → x.a.toNat < 16 → x.b.toNat < 16 → NextOk s.blk t →
    let core := coreGet s.blk (coreKey t.core)
    let av := fun i => f.layout.decode (elem (core.rv x.a.toNat) f.width i)
    let bv := fun i => f.layout.decode (elem (core.rv x.b.toNat) f.width i)
    let dv := fun i => f.layout.decode (elem (core.rv x.d.toNat) f.width i)
    (∀ e ∈ ([(.vadd, fun a b _ => roundIeee f.layout [a, b] (a.add b)), (.vsub, fun a b _ => roundIeee f.layout [a, b] (a.add b.neg)),
        (.vmul, fun a b _ => roundIeee f.layout [a, b] (a.mul b)), (.vfma, fun a b d => roundIeee f.layout [a, b, d] ((a.mul b).add d)),
        (.vmin, fun a b _ => roundVal f.layout .nearest true (a.min b)),
        (.vmax, fun a b _ => roundVal f.layout .nearest true (a.max b))] : List ((Thr → Fields → Instr) × (Val → Val → Val → Nat × Flags))),
      (f = .bf16 ∧ x.mod = 6 ∨ f = .fp16 ∧ x.mod = 7 ∨ f = .fp32 ∧ x.mod = 8) →
      Issues s.blk t (e.1 t x) [x.d.toNat, x.a.toNat, x.b.toNat] →
      Effect (e.1 t x) s (fun c => VectorResult s.blk c t x.d.toNat f (fun i => e.2 (av i) (bv i) (dv i)))) ∧
    (∀ e ∈ ([(0, fun a b => a.eqv b), (1, fun a b => !a.eqv b), (2, fun a b => a.lt b), (3, fun a b => a.lt b || a.eqv b)]
        : List (Nat × (Val → Val → Bool))),
      (f = .bf16 ∧ x.mod.toNat = 6 + 16 * e.1 ∨ f = .fp16 ∧ x.mod.toNat = 7 + 16 * e.1 ∨ f = .fp32 ∧ x.mod.toNat = 8 + 16 * e.1) →
      Issues s.blk t (.vcmp t x) [x.d.toNat, x.a.toNat, x.b.toNat] →
      Effect (.vcmp t x) s (fun c =>
        VectorResult s.blk c t x.d.toNat f (fun i => (if e.2 (av i) (bv i) then 2 ^ f.width - 1 else 0, Flags.none))))

/-- The bitwise instructions, `VBCAST`, `VEXT` and `VINS`. -/
def Obligations.VectorBits : Prop :=
  ∀ (t : Thr) (x : Fields) (s : State), x.mod = 0 → NextOk s.blk t →
    let core := coreGet s.blk (coreKey t.core)
    let h := thrGet s.blk (thrKey t)
    (∀ e ∈ ([(.vand, fun a b _ => a &&& b), (.vor, fun a b _ => a ||| b), (.vxor, fun a b _ => a ^^^ b),
        (.vsel, fun a b d => (a &&& d) ||| (b &&& ~~~d))] : List ((Thr → Fields → Instr) × (Line → Line → Line → Line))),
      x.imm = 0 → x.d.toNat < 16 → x.a.toNat < 16 → x.b.toNat < 16 → Issues s.blk t (e.1 t x) [x.d.toNat, x.a.toNat, x.b.toNat] →
      Effect (e.1 t x) s (fun c =>
        CoreIs c t (core.wv x.d.toNat (e.2 (core.rv x.a.toNat) (core.rv x.b.toNat) (core.rv x.d.toNat))) ∧
        thrGet c (thrKey t) = nextThr s.blk t ∧ OnlyThread s.blk c t)) ∧
    (x.b = 0 → x.imm = 0 → x.d.toNat < 16 → Issues s.blk t (.vbcast t x) [x.d.toNat] →
      Effect (.vbcast t x) s (fun c =>
        (∃ v, CoreIs c t (core.wv x.d.toNat v) ∧ ∀ i < 16, elem v 32 i = (h.rs x.a).toNat) ∧
        thrGet c (thrKey t) = nextThr s.blk t ∧ OnlyThread s.blk c t)) ∧
    (x.b = 0 → x.imm.toNat < 16 → x.a.toNat < 16 → Issues s.blk t (.vext t x) [x.a.toNat] →
      Effect (.vext t x) s (fun c =>
        WritesS h (thrGet c (thrKey t)) x.d ((core.rv x.a.toNat).extractLsb' (32 * x.imm.toNat) 32) ∧
        WentTo s.blk c t (pcOf s.blk t + 8) ∧ OnlyThread s.blk c t ∧ SameCore s.blk c t)) ∧
    (x.b = 0 → x.imm.toNat < 16 → x.d.toNat < 16 → Issues s.blk t (.vins t x) [x.d.toNat] →
      Effect (.vins t x) s (fun c =>
        (∃ v, CoreIs c t (core.wv x.d.toNat v) ∧
          ∀ i < 16, elem v 32 i = if i = x.imm.toNat then (h.rs x.a).toNat else elem (core.rv x.d.toNat) 32 i) ∧
        thrGet c (thrKey t) = nextThr s.blk t ∧ OnlyThread s.blk c t))

/-- `VSUM` adds adjacent pairs until one value remains, each sum rounded to nearest; `VMAXR` takes the maximum of the 16 lanes. -/
def Obligations.VectorReductions : Prop :=
  ∀ (t : Thr) (x : Fields) (s : State), x.b = 0 → x.mod = 8 → x.imm = 0 → x.a.toNat < 16 → NextOk s.blk t →
    let h := thrGet s.blk (thrKey t)
    let l := fun i => elem ((coreGet s.blk (coreKey t.core)).rv x.a.toNat) 32 i
    let add := fun a b : Nat × Flags =>
      ((roundIeee f32 [f32.decode a.1, f32.decode b.1] ((f32.decode a.1).add (f32.decode b.1))).1,
        (a.2.or b.2).or (roundIeee f32 [f32.decode a.1, f32.decode b.1] ((f32.decode a.1).add (f32.decode b.1))).2)
    let leaf := fun i => (l i, Flags.none)
    let two := fun i => add (leaf (2 * i)) (leaf (2 * i + 1))
    let four := fun i => add (two (2 * i)) (two (2 * i + 1))
    let eight := fun i => add (four (2 * i)) (four (2 * i + 1))
    (Issues s.blk t (.vsum t x) [x.a.toNat] →
      Effect (.vsum t x) s (fun c =>
        WritesS h (thrGet c (thrKey t)) x.d (BitVec.ofNat 32 (add (eight 0) (eight 1)).1) ∧
        { thrGet c (thrKey t) with s := h.s } = { nextThr s.blk t with astat := h.astat ||| (add (eight 0) (eight 1)).2.astat } ∧
        OnlyThread s.blk c t ∧ SameCore s.blk c t)) ∧
    (Issues s.blk t (.vmaxr t x) [x.a.toNat] →
      Effect (.vmaxr t x) s (fun c =>
        WritesS h (thrGet c (thrKey t)) x.d (BitVec.ofNat 32 ((List.range 15).foldl
          (fun m i => (roundVal f32 .nearest true ((f32.decode m).max (f32.decode (l (i + 1))))).1)
          (roundVal f32 .nearest true (f32.decode (l 0))).1)) ∧
        WentTo s.blk c t (pcOf s.blk t + 8) ∧ OnlyThread s.blk c t ∧ SameCore s.blk c t))

/-- The special functions work on each FP32 lane, with the special values of R141; the error of a finite result is the module's own
(log 10). -/
def Obligations.SpecialFunctions : Prop :=
  (∀ e ∈ ([(.vexp, .exp), (.vrcp, .rcp), (.vrsq, .rsq), (.vsig, .sig), (.vsilu, .silu)] : List ((Thr → Fields → Instr) × Sfu)),
    ∀ (t : Thr) (x : Fields) (s : State), x.b = 0 → x.mod = 0 → x.imm = 0 → x.d.toNat < 16 → x.a.toNat < 16 → NextOk s.blk t →
      Issues s.blk t (e.1 t x) [x.d.toNat, x.a.toNat] →
      Effect (e.1 t x) s (fun c => VectorResult s.blk c t x.d.toNat .fp32 (fun i =>
        sfu e.2 (BitVec.ofNat 32 (elem ((coreGet s.blk (coreKey t.core)).rv x.a.toNat) 32 i))))) ∧
  (∀ f w, (f32Val w).isNan = true → sfu f w = (0x7FC00000, Flags.none)) ∧
  (∀ e ∈ ([(.exp, 0x7F800000, 0x7F800000), (.exp, 0xFF800000, 0), (.rcp, 0x7F800000, 0), (.rcp, 0xFF800000, 0x80000000),
      (.rsq, 0x7F800000, 0), (.sig, 0x7F800000, 0x3F800000), (.sig, 0xFF800000, 0), (.silu, 0x7F800000, 0x7F800000),
      (.silu, 0xFF800000, 0x80000000)] : List (Sfu × Word × Nat)), sfu e.1 e.2.1 = (e.2.2, Flags.none)) ∧
  (∀ e ∈ ([(.rcp, 0, 0x7F800000), (.rcp, 0x80000000, 0xFF800000), (.rsq, 0, 0x7F800000), (.rsq, 0x80000000, 0xFF800000)]
      : List (Sfu × Word × Nat)), sfu e.1 e.2.1 = (e.2.2, { Flags.none with dz := true })) ∧
  (∀ w : Word, 0x80000000 < w.toNat → w.toNat ≤ 0xFF800000 → sfu .rsq w = (0x7FC00000, { Flags.none with nv := true }))

/-! ### Dots, accumulators and conversions (R123 to R139, R158 to R165) -/

/-- `DOT` on register operands: the single dot, or the run of dots that advances the accumulator or vB, each added to its
accumulator by R128 or R131, with the scale codes of R161; a format of the other mode traps with `ACC_MODE` and the index of the
first such dot, and nothing is added. -/
def Obligations.DotOfRegisters : Prop :=
  ∀ (t : Thr) (x : Fields) (s : State) (f : FmtCode) (rep n : Nat), fmtOf (fld x.mod 0 4) = some f → x.mod.toNat = fld x.mod 0 4 + 32 * rep →
    (rep = 0 ∧ n = 1 ∧ fld x.imm 0 12 = 0 ∨ (rep = 1 ∨ rep = 2) ∧ n = fld x.imm 0 12 + 1) → x.imm.toNat < 2 ^ 22 →
    (f.isMx = false → fld x.imm 12 10 = 0) → x.d.toNat < 16 → x.a.toNat < 16 → x.b.toNat < 16 →
    let h := thrGet s.blk (thrKey t)
    let core := coreGet s.blk (coreKey t.core)
    let acc := fun k => if rep = 1 then (x.d.toNat + k) % 16 else x.d.toNat
    let vb := fun k => if rep = 2 then (x.b.toNat + k) % 16 else x.b.toNat
    let codes := fun r j : Nat => if r = 0 then 0x7F else (h.rs (BitVec.ofNat 5 r)).toNat / 256 ^ j % 256
    let vals := fun v : Line => (List.range f.perDot).map (fun i => elemVal f true (elem v f.width i))
    let one := fun (y : Acc) (k : Nat) =>
      if f.isMx then dotFixed y (vals (core.rv x.a.toNat)) (vals (core.rv (vb k))) (codes (fld x.imm 12 5)) (codes (fld x.imm 17 5))
      else dotFloat y (vals (core.rv x.a.toNat)) (vals (core.rv (vb k)))
    Issues s.blk t (.dot t x) ([x.a.toNat] ++ if rep = 2 then (List.range (min 16 n)).map vb else [x.b.toNat]) →
    ((∀ k < n, (core.ra (acc k)).float = !f.isMx) → NextOk s.blk t →
      Effect (.dot t x) s (fun c =>
        thrGet c (thrKey t) = nextThr s.blk t ∧ OnlyThread s.blk c t ∧
        (∀ a, (coreGet c (coreKey t.core)).ra a = ((List.range n).filter (fun k => acc k = a)).foldl one (core.ra a)) ∧
        ∃ m, CoreIs c t { core with acc := m })) ∧
    (∀ k < n, (core.ra (acc k)).float = f.isMx → (∀ j < k, (core.ra (acc j)).float = !f.isMx) →
      Effect (.dot t x) s (fun c => TrapTaken s.blk c t .accMode (BitVec.ofNat 32 k)))

/-- A single `DOT` that takes its first operand from the stream: the operand bytes at the data pointer and one scale code per block at
the scale pointer, both pointers moving past them; at or above 0xA000 it traps with `STREAM_RANGE`. -/
def Obligations.DotOfStream : Prop :=
  ∀ (t : Thr) (x : Fields) (s : State) (f : FmtCode), fmtOf (fld x.mod 0 4) = some f → x.mod.toNat = fld x.mod 0 4 + 16 →
    x.imm.toNat < 2 ^ 22 → fld x.imm 0 17 = 0 → (f.isMx = false → x.imm = 0) → x.d.toNat < 16 → x.a = 0 → x.b.toNat < 16 →
    let h := thrGet s.blk (thrKey t)
    let core := coreGet s.blk (coreKey t.core)
    let z := h.stream
    Issues s.blk t (.dot t x) [x.b.toNat] → (core.ra x.d.toNat).float = !f.isMx →
    (∀ d sc, z.dptr + f.dotBytes ≤ 40960 → (f.dotBlocks ≠ 0 → z.sptr + f.dotBlocks ≤ 40960) → heldBytes z.data z.dptr f.dotBytes = some d →
      heldBytes z.scale z.sptr f.dotBlocks = some sc → (∀ l < 640, CleanLine s.blk (coreKey t.core) l) → NextOk s.blk t →
      let a := (List.range f.perDot).map (fun i => elemVal f true (leNat d / 2 ^ (f.width * i) % 2 ^ f.width))
      let b := (List.range f.perDot).map (fun i => elemVal f true (elem (core.rv x.b.toNat) f.width i))
      let sb := fun j : Nat => if fld x.imm 17 5 = 0 then 0x7F else (h.rs (BitVec.ofNat 5 (fld x.imm 17 5))).toNat / 256 ^ j % 256
      let sa := fun j : Nat => ((sc.map (·.toNat)).getD j 0x7F)
      Effect (.dot t x) s (fun c =>
        CoreIs c t (core.wa x.d.toNat (if f.isMx then dotFixed (core.ra x.d.toNat) a b sa sb else dotFloat (core.ra x.d.toNat) a b)) ∧
        (∃ y, thrGet c (thrKey t) = { nextThr s.blk t with stream := y } ∧ y.dptr = z.dptr + f.dotBytes ∧
          y.sptr = z.sptr + f.dotBlocks) ∧ OnlyThread s.blk c t)) ∧
    (40960 < z.dptr + f.dotBytes ∨ f.dotBlocks ≠ 0 ∧ 40960 < z.sptr + f.dotBlocks →
      Effect (.dot t x) s (fun c => TrapTaken s.blk c t .streamRange 0))

/-- `ACLR` clears the accumulators of its mask to the mode and anchor it names, and no other; `AGET` reads a part of one. -/
def Obligations.AccumulatorClearAndGet : Prop :=
  ∀ (t : Thr) (x : Fields) (s : State), x.b = 0 → NextOk s.blk t →
    let core := coreGet s.blk (coreKey t.core)
    (x.d = 0 → x.a = 0 → x.mod.toNat < 2 → x.imm.toNat < 2 ^ 25 → (x.mod = 1 → x.imm.toNat < 2 ^ 16) → Issues s.blk t (.aclr t x) [] →
      Effect (.aclr t x) s (fun c =>
        (∀ a, (coreGet c (coreKey t.core)).ra a = if a < 16 ∧ x.imm.getLsbD a then
          ⟨0, decide (x.mod = 1), x.imm.extractLsb' 16 9, false, false, false, false, false⟩ else core.ra a) ∧
        (∃ m, CoreIs c t { core with acc := m }) ∧ thrGet c (thrKey t) = nextThr s.blk t ∧ OnlyThread s.blk c t)) ∧
    (x.mod.toNat ≤ 2 → x.imm = 0 → x.a.toNat < 16 → Issues s.blk t (.aget t x) [] →
      let y := core.ra x.a.toNat
      Effect (.aget t x) s (fun c =>
        WritesS (thrGet s.blk (thrKey t)) (thrGet c (thrKey t)) x.d (if x.mod = 0 then y.n.extractLsb' 0 32 else
          if x.mod = 1 then y.n.extractLsb' 32 32 else
            0#17 ++ BitVec.ofBool y.ninf ++ BitVec.ofBool y.pinf ++ BitVec.ofBool y.nan ++ BitVec.ofBool y.inx ++ BitVec.ofBool y.sat ++
              BitVec.ofBool y.float ++ y.f) ∧
        WentTo s.blk c t (pcOf s.blk t + 8) ∧ OnlyThread s.blk c t ∧ SameCore s.blk c t))

/-- `ARD` and `ARDV` put the read-out of R132 into sD or one lane of vD, add its flags and the accumulator's `SAT` and `INX` to
`ASTAT`, draw once where they round stochastically, and clear the accumulator where `CLR` says so. -/
def Obligations.AccumulatorReadOut : Prop :=
  ∀ (t : Thr) (x : Fields) (s : State), (fld x.mod 0 2 = 0 ∨ fld x.mod 0 2 = 2) → x.a.toNat < 16 → NextOk s.blk t →
    let h := thrGet s.blk (thrKey t)
    let core := coreGet s.blk (coreKey t.core)
    let y := core.ra x.a.toNat
    let stoch := decide (fld x.mod 0 2 = 2)
    let rnd := if stoch then Rnd.stoch (srNext core.sr).2 else Rnd.nearest
    let drawn := if stoch then { core with sr := (srNext core.sr).1 } else core
    let left := if x.mod.getLsbD 2 then drawn.wa x.a.toNat ⟨0, y.float, y.f, false, false, false, false, false⟩ else drawn
    let status := fun q : Nat × Flags => h.astat ||| q.2.astat ||| (BitVec.ofBool y.inx ++ BitVec.ofBool y.sat ++ 0#5).setWidth 32
    (x.mod.toNat < 8 → x.imm = 0 → Issues s.blk t (.ard t x) [] →
      let q := readOut y (if x.b = 0 then f32.decode 0x3F800000 else f32.decode (h.rs x.b).toNat) rnd
      Effect (.ard t x) s (fun c =>
        WritesS h (thrGet c (thrKey t)) x.d (BitVec.ofNat 32 q.1) ∧
        { thrGet c (thrKey t) with s := h.s } = { nextThr s.blk t with astat := status q } ∧ CoreIs c t left ∧ OnlyThread s.blk c t)) ∧
    (x.mod.toNat < 16 → x.imm.toNat < 16 → x.b.toNat < 16 → x.d.toNat < 16 → (x.mod.getLsbD 3 = true → x.b = 0) →
      Issues s.blk t (.ardv t x) ([x.d.toNat] ++ if x.mod.getLsbD 3 then [] else [x.b.toNat]) →
      let q := readOut y (if x.mod.getLsbD 3 then f32.decode 0x3F800000 else f32.decode (elem (core.rv x.b.toNat) 32 x.imm.toNat)) rnd
      Effect (.ardv t x) s (fun c =>
        (∃ v, CoreIs c t (left.wv x.d.toNat v) ∧
          ∀ i < 16, elem v 32 i = if i = x.imm.toNat then q.1 else elem (core.rv x.d.toNat) 32 i) ∧
        thrGet c (thrKey t) = { nextThr s.blk t with astat := status q } ∧ OnlyThread s.blk c t))

/-- `CVT` converts the elements that PART selects, each rounded by itself, and leaves the rest of vD; `CVTMX` converts 32 inputs into
one block, whose shared scale goes to byte PART of sB.  A stochastic rounding draws once an element, in ascending order. -/
def Obligations.Conversions : Prop :=
  ∀ (t : Thr) (x : Fields) (s : State) (fs fd : FmtCode), fmtOf (fld x.mod 0 4) = some fs → fmtOf (fld x.imm 0 4) = some fd →
    fld x.mod 4 2 ≠ 3 → x.mod.toNat < 128 → x.d.toNat < 16 → x.a.toNat < 16 → NextOk s.blk t →
    let h := thrGet s.blk (thrKey t)
    let core := coreGet s.blk (coreKey t.core)
    let part := fld x.imm 4 4
    let state := fun n : Nat => if fld x.mod 4 2 = 2 then Nat.repeat (fun z => (srNext z).1) n core.sr else core.sr
    let rnd := fun i : Nat => if fld x.mod 4 2 = 0 then Rnd.nearest else if fld x.mod 4 2 = 1 then Rnd.zero else .stoch (srNext (state i)).2
    let narrow := fun (i : Nat) (v : Val) => if fd = .int8 then roundInt8 (rnd i) v else roundVal fd.layout (rnd i) (x.mod.getLsbD 6) v
    let n := min fs.perReg fd.perReg
    let source := fun i => elem (core.rv x.a.toNat) fs.width (if fd.perReg < fs.perReg then part * n + i else i)
    let value := fun i => if fld x.imm 8 5 = 0 then elemVal fs false (source i)
      else scaled (elemVal fs true (source i)) ((h.rs (BitVec.ofNat 5 (fld x.imm 8 5))).toNat % 256)
    let first := if fs.perReg < fd.perReg then part * n else 0
    (x.b = 0 → x.imm.toNat < 2 ^ 13 → part < max fs.perReg fd.perReg / n → (fs.isMx = false → fld x.imm 8 5 = 0) →
      Issues s.blk t (.cvt t x) [x.d.toNat, x.a.toNat] →
      Effect (.cvt t x) s (fun c =>
        (∃ v, CoreIs c t ({ core with sr := state n }.wv x.d.toNat v) ∧ (∀ i < fd.perReg, elem v fd.width i =
          if first ≤ i ∧ i < first + n then (narrow (i - first) (value (i - first))).1 else elem (core.rv x.d.toNat) fd.width i) ∧
          v.toNat < 2 ^ (fd.width * fd.perReg)) ∧
        thrGet c (thrKey t) = { nextThr s.blk t with
          astat := h.astat ||| (allFlags ((List.range n).map (fun i => narrow i (value i)))).astat } ∧ OnlyThread s.blk c t)) ∧
    (fs.isMx = false → fd.isMx = true → x.imm.toNat < 2 ^ 8 → (fs = .fp32 → x.a.toNat % 2 = 0) → part < fd.perReg / 32 →
      Issues s.blk t (.cvtmx t x) ([x.d.toNat, x.a.toNat] ++ if fs = .fp32 then [x.a.toNat + 1] else []) →
      let input := fun i => fs.layout.decode (if fs = .fp32 ∧ 16 ≤ i then elem (core.rv (x.a.toNat + 1)) 32 (i - 16)
        else elem (core.rv x.a.toNat) fs.width i)
      let k := mxScale ((List.range 32).map input) fd.emax
      let block := fun i => if k = 0xFF then
          (0, match input i with
            | .nan => { Flags.none with nv := true }
            | .inf _ => { Flags.none with of := true }
            | _ => Flags.none)
        else narrow i ((input i).scale (127 - (k : Int) + if fd = .int8 then 6 else 0))
      Effect (.cvtmx t x) s (fun c =>
        (∃ v, CoreIs c t ({ core with sr := state 32 }.wv x.d.toNat v) ∧ ∀ i < fd.perReg, elem v fd.width i =
          if 32 * part ≤ i ∧ i < 32 * part + 32 then (block (i - 32 * part)).1 else elem (core.rv x.d.toNat) fd.width i) ∧
        (∃ w : Word, WritesS h (thrGet c (thrKey t)) x.b w ∧
          ∀ j < 4, w.extractLsb' (8 * j) 8 = if j = part then BitVec.ofNat 8 k else (h.rs x.b).extractLsb' (8 * j) 8) ∧
        { thrGet c (thrKey t) with s := h.s } = { nextThr s.blk t with astat := h.astat ||| (allFlags ((List.range 32).map block)).astat } ∧
        OnlyThread s.blk c t))

/-! ### The mesh (R54, R60 to R75, R166 to R168) -/

/-- A remote request to another team leaves as one packet and counts once until it is answered; one that names a team outside the
paddock faults the thread. -/
def Obligations.RemoteRequestsSent : Prop :=
  ∀ (t : Thr) (x : Fields) (s : State) (p : Nat), padOf s.blk (teamKey t.core.team) = some p → x.imm = 0 →
    let h := thrGet s.blk (thrKey t)
    let ck := coreKey t.core
    let core := coreGet s.blk ck
    let y := padGet s.blk p
    let w := (h.rs x.a).toNat
    let u := w / 2 ^ 22 % 128
    let v := w / 2 ^ 16 % 64
    let cx := w / 2 ^ 10 % 64
    let line := w % 1024
    let team := (y.col + u) * 59 + (y.row + v)
    let l := (h.rs x.b).toNat % 1024
    let n := x.mod.toNat + 1
    let sent := fun (c : Block) (m : MBody) (z : CoreS) =>
      c.die.mesh = s.blk.die.mesh ++ [packet (.core t.core) (teamOf team) p m] ∧ CoreIs c t { z with outstanding := core.outstanding + 1 } ∧
      thrGet c (thrKey t) = nextThr s.blk t ∧ OthersKeep s.blk c t ∧
      { c with die := { c.die with thr := s.blk.die.thr, cores := s.blk.die.cores, mesh := s.blk.die.mesh } } = s.blk
    (u < y.env.width → v < y.env.height → core.outstanding < 16 → team ≠ teamKey t.core.team → NextOk s.blk t →
      (x.d = 0 → n ≤ 16 → l + n ≤ 640 → (∀ i < n, CleanLine s.blk ck (l + i)) → Issues s.blk t (.rwr t x) [] →
        Effect (.rwr t x) s (fun c => sent c (.write cx line ((List.range n).map (fun i => cline s.blk ck (l + i)))) core)) ∧
      (x.d = 0 → x.mod = 0 → x.b.toNat < 16 → Issues s.blk t (.rwrv t x) [x.b.toNat] →
        Effect (.rwrv t x) s (fun c => sent c (.write cx line [core.rv x.b.toNat]) core)) ∧
      (x.d = 0 → n ≤ 16 → l + n ≤ 640 → core.wB ≤ l → Issues s.blk t (.rrd t x) [] →
        Effect (.rrd t x) s (fun c => sent c (.readReq cx line n (thrKey t) (.lines l)) core)) ∧
      (x.b = 0 → x.mod = 0 → x.d.toNat < 16 → Issues s.blk t (.rrdv t x) [x.d.toNat] →
        Effect (.rrdv t x) s (fun c => sent c (.readReq cx line 1 (thrKey t) (.vreg x.d.toNat))
          { core with await := core.await ++ [(t.th.val, x.d.toNat)] }))) ∧
    (y.env.width ≤ u ∨ y.env.height ≤ v → x.d = 0 → x.mod = 0 → x.b.toNat < 16 → Issues s.blk t (.rwrv t x) [x.b.toNat] →
      Effect (.rwrv t x) s (fun c =>
        (thrGet c (thrKey t)).st = .faulted ∧ OthersKeep s.blk c t ∧ SameCore s.blk c t ∧ c.die.mesh = s.blk.die.mesh ∧
        ∃ r q, c.reports = s.blk.reports ++ [r, q] ∧ r.source = 0x109 ∧ r.cls = contained ∧ q.source = 0x108 ∧ q.cls = contained ∧
          fld q.d1 21 8 = 0x06))

/-- Within its own team a remote request goes over the team bus: the lines are written, or read, at once, and nothing stays
outstanding. -/
def Obligations.TeamBusTransfers : Prop :=
  ∀ (t : Thr) (x : Fields) (s : State) (p : Nat), padOf s.blk (teamKey t.core.team) = some p → x.imm = 0 → NextOk s.blk t →
    let h := thrGet s.blk (thrKey t)
    let ck := coreKey t.core
    let core := coreGet s.blk ck
    let y := padGet s.blk p
    let w := (h.rs x.a).toNat
    let u := w / 2 ^ 22 % 128
    let v := w / 2 ^ 16 % 64
    let far := 64 * teamKey t.core.team + w / 2 ^ 10 % 64
    let line := w % 1024
    let l := (h.rs x.b).toNat % 1024
    let n := x.mod.toNat + 1
    u < y.env.width → v < y.env.height → core.outstanding < 16 → (y.col + u) * 59 + (y.row + v) = teamKey t.core.team → n ≤ 16 →
    line + n ≤ 640 →
      (x.d = 0 → l + n ≤ 640 → (∀ i < n, CleanLine s.blk ck (l + i)) → (coreGet s.blk far).wB ≤ line → Issues s.blk t (.rwr t x) [] →
        Effect (.rwr t x) s (fun c => Stored s.blk c t far (64 * line) (64 * n) (fun i => cbyte s.blk ck (64 * l + i)) ∧
          thrGet c (thrKey t) = nextThr s.blk t ∧ SameCore s.blk c t)) ∧
      (x.d = 0 → x.mod = 0 → x.b.toNat < 16 → (coreGet s.blk far).wB ≤ line → Issues s.blk t (.rwrv t x) [x.b.toNat] →
        Effect (.rwrv t x) s (fun c => Stored s.blk c t far (64 * line) 64 (fun i => (core.rv x.b.toNat).extractLsb' (8 * i) 8) ∧
          thrGet c (thrKey t) = nextThr s.blk t ∧ SameCore s.blk c t)) ∧
      (x.d = 0 → l + n ≤ 640 → core.wB ≤ l → (∀ i < n, CleanLine s.blk far (line + i)) → Issues s.blk t (.rrd t x) [] →
        Effect (.rrd t x) s (fun c => Stored s.blk c t ck (64 * l) (64 * n) (fun i => cbyte s.blk far (64 * line + i)) ∧
          thrGet c (thrKey t) = nextThr s.blk t ∧ SameCore s.blk c t)) ∧
      (x.b = 0 → x.mod = 0 → x.d.toNat < 16 → CleanLine s.blk far line → Issues s.blk t (.rrdv t x) [x.d.toNat] →
        Effect (.rrdv t x) s (fun c => CoreIs c t (core.wv x.d.toNat (cline s.blk far line)) ∧
          thrGet c (thrKey t) = nextThr s.blk t ∧ OnlyThread s.blk c t))

/-- A packet goes from its sender along its row to the destination's column and then along that column; a hop moves its head one
router on and leaves no flit behind uncounted, where the next input has room; at the destination it leaves the mesh, a packet for a
cistern to wait for its port; and each type does there what R62 says, at a team whose paddock runs.  Where a flit's code finds a
double-bit error the packet is discarded. -/
def Obligations.MeshArrivals : Prop :=
  (∀ (a d : TeamId), let dc := (d.col.val - a.col.val) + (a.col.val - d.col.val); let dr := (d.row.val - a.row.val) + (a.row.val - d.row.val)
    (meshRoute a d).length = dc + dr + 1 ∧
    (∀ i ≤ dc, (meshRoute a d).getD i 0 = (if a.col.val ≤ d.col.val then a.col.val + i else a.col.val - i) * 59 + a.row.val) ∧
    (∀ i ≤ dr, (meshRoute a d).getD (dc + i) 0 = d.col.val * 59 + (if a.row.val ≤ d.row.val then a.row.val + i else a.row.val - i))) ∧
  (∀ (k : CoreId) (dst : TeamId) (s : State) (p q : Nat) (y : MBody) (flits : List Nat) (port : Bool), InPad s.blk (teamKey dst) q →
    let m : MPkt := ⟨.core k, dst, p, y, flits, port⟩
    let go := [Instr.meshRemoteWrite, .meshRemoteReadRequest, .meshReadResponse, .meshWriteAck, .semaphoreOperationPacket].getD
      y.kind .meshRemoteWrite (.core k) dst
    let rest := s.blk.die.mesh.erase m
    Moves s.blk m →
    (m.port = false → m.there = false → 0 < flits.sum → Effect (go .good) s (fun c => ∃ f,
      c = { s.blk with die := { s.blk.die with mesh := rest ++ [{ m with flits := f }], grants := grantsAfter s.blk m } } ∧
      ({ m with flits := f } : MPkt).head = m.head + 1 ∧ f.sum = flits.sum ∧ f.getD (m.head + 1) 0 ≤ nextRoom s.blk m)) ∧
    (m.port = false → Effect (go .double) s (fun c => c.die.mesh = rest ∧
      (∃ r, c.reports = s.blk.reports ++ [r] ∧ r.cls = contained ∧
        r.source = teamSource s.blk (if m.there then teamKey dst else m.way.getD (m.head + 1) 0)) ∧
      { c with reports := s.blk.reports, die := { c.die with mesh := s.blk.die.mesh, grants := s.blk.die.grants } } = s.blk)) ∧
    (m.port = false → m.there = true → y.kind < 2 → Effect (go .good) s (fun c =>
      c = { s.blk with die := { s.blk.die with
        mesh := rest ++ [{ m with flits := [], port := true }], grants := grantsAfter s.blk m } })) ∧
    (m.port = true → ∀ (cx : Fin 64) line data, y = .write cx line data → line < 640 → line + data.length ≤ 640 →
      (coreGet s.blk (64 * teamKey dst + cx)).wB ≤ line →
      Effect (go .good) s (fun c =>
        c.die.mesh = rest ++ [packet (.core ⟨dst, cx⟩) k.team p (.ack (coreKey k))] ∧
        (∀ ck i, i < 40960 → cbyte c ck i = if ck = 64 * teamKey dst + cx ∧ 64 * line ≤ i ∧ i < 64 * (line + data.length)
          then (data.getD (i / 64 - line) 0).extractLsb' (8 * (i % 64)) 8 else cbyte s.blk ck i) ∧
        { c with die := { c.die with mesh := s.blk.die.mesh, cist := s.blk.die.cist, cistErr := s.blk.die.cistErr } } = s.blk)) ∧
    (m.port = true → ∀ (cx : Fin 64) line n thr back, y = .readReq cx line n thr back → line + n ≤ 640 →
      (∀ i < n, CleanLine s.blk (64 * teamKey dst + cx) (line + i)) →
      Effect (go .good) s (fun c => c = { s.blk with die := { s.blk.die with
        mesh := rest ++ [packet (.core ⟨dst, cx⟩) k.team p
          (.readResp ((List.range n).map (fun i => cline s.blk (64 * teamKey dst + cx) (line + i))) thr back)] } })) ∧
    (m.port = false → m.there = true → ∀ data thr v, y = .readResp data thr (.vreg v) →
      Effect (go .good) s (fun c =>
        let z := coreGet s.blk (thr / 4)
        c.die.mesh = rest ∧ c.die.grants = grantsAfter s.blk m ∧ (∀ j, j ≠ thr / 4 → coreGet c j = coreGet s.blk j) ∧
        coreGet c (thr / 4) = { z.wv v (data.headD 0) with await := z.await.erase (thr % 4, v), outstanding := z.outstanding - 1 } ∧
        { c with die := { c.die with mesh := s.blk.die.mesh, grants := s.blk.die.grants, cores := s.blk.die.cores } } = s.blk)) ∧
    (m.port = false → m.there = true → ∀ ck, y = .ack ck →
      Effect (go .good) s (fun c =>
        c.die.mesh = rest ∧ c.die.grants = grantsAfter s.blk m ∧ (∀ j, j ≠ ck → coreGet c j = coreGet s.blk j) ∧
        coreGet c ck = { coreGet s.blk ck with outstanding := (coreGet s.blk ck).outstanding - 1 } ∧
        { c with die := { c.die with mesh := s.blk.die.mesh, grants := s.blk.die.grants, cores := s.blk.die.cores } } = s.blk)) ∧
    (m.port = false → m.there = true → ∀ ctr n vid thr, y = .sem .sadd ctr n vid thr → ctr < 512 →
      tget 0 s.blk.die.ctrErr (512 * teamKey dst + ctr) = 0 →
      (∀ w ∈ s.blk.die.waiters, ¬(w.team = teamKey dst ∧ w.ctr = ctr)) → ctrGet s.blk (teamKey dst) ctr + n ≤ 16777215 →
      Effect (go .good) s (fun c =>
        c.die.mesh = rest ∧ c.die.grants = grantsAfter s.blk m ∧
        (∀ j i, i < 512 → ctrGet c j i = if j = teamKey dst ∧ i = ctr then ctrGet s.blk (teamKey dst) ctr + n else ctrGet s.blk j i) ∧
        { c with die := { c.die with
          mesh := s.blk.die.mesh, grants := s.blk.die.grants, ctr := s.blk.die.ctr, ctrErr := s.blk.die.ctrErr } } = s.blk)))

/-! ### The pump (R55 to R59, R91 to R93, R169, R170) -/

/-- `PUMP` puts its command at the end of the team's queue where its checks pass, its completion ID translates and the queue has room;
the pump is then open. -/
def Obligations.PumpQueues : Prop :=
  ∀ (t : Thr) (x : Fields) (s : State) (p : Nat), padOf s.blk (teamKey t.core.team) = some p → x.d = 0 → x.mod.toNat < 3 →
    let h := thrGet s.blk (thrKey t)
    let k := teamKey t.core.team
    let u := pumpGet s.blk k
    let line := 640 * ((h.rs x.b).toNat / 1024 % 64) + (h.rs x.b).toNat % 1024
    let len := x.imm.toNat % 65536 + 1
    let vid := x.imm.toNat / 65536 % 4096
    let amount := x.imm.toNat / 2 ^ 28
    let cmd : PumpCmd := ⟨x.mod.toNat, (h.rs x.a).toNat, line, len, vid, amount, thrKey t, 0⟩
    Issues s.blk t (.pump t x) [] →
    ((h.rs x.b).toNat < 65536 → (h.rs x.b).toNat % 1024 < 640 → line + len ≤ 40960 →
      (x.mod = 0 → spanProtected s.blk k line len = false) → (x.mod ≠ 2 → spanUnmapped s.blk (padGet s.blk p) cmd = false) →
      (amount ≠ 0 → (tget none (padGet s.blk p).sem vid).isSome = true ∧ tget 0 s.blk.die.semErr (4096 * k + vid) = 0) → u.q.length < 32 → NextOk s.blk t →
      Effect (.pump t x) s (fun c =>
        pumpGet c k = ⟨u.q ++ [cmd], false, u.idleAt⟩ ∧ (∀ j, j ≠ k → pumpGet c j = pumpGet s.blk j) ∧ thrGet c (thrKey t) = nextThr s.blk t ∧
        SameCore s.blk c t ∧ OthersKeep s.blk c t ∧
        { c with die := { c.die with thr := s.blk.die.thr, cores := s.blk.die.cores, pumps := s.blk.die.pumps } } = s.blk)) ∧
    (65536 ≤ (h.rs x.b).toNat → Effect (.pump t x) s (fun c => TrapTaken s.blk c t .pumpRefused 169)) ∧
    ((h.rs x.b).toNat < 65536 → 640 ≤ (h.rs x.b).toNat % 1024 ∨ 40960 < line + len →
      Effect (.pump t x) s (fun c => TrapTaken s.blk c t .pumpRefused 73))

/-- A pump's oldest command completes: from HBM to the cisterns, every byte of its lines is the byte of HBM that its paddock address
maps to, and the command leaves the queue. -/
def Obligations.PumpMovesLines : Prop :=
  ∀ (k : TeamId) (s : State) (p line len : Nat) (hp thr : Nat) (r : List PumpCmd), InPad s.blk (teamKey k) p →
    let team := teamKey k
    let segs := padSegs s.blk (padGet s.blk p)
    let from_ := fun i => (segs.getD (i / segBytes) 0) * segBytes + i % segBytes
    (pumpGet s.blk team).q = ⟨0, hp, line, len, 0, 0, thr, 0⟩ :: r → line + len ≤ 40960 → 64 * (hp + len) ≤ segs.length * segBytes →
    (∀ i < 64 * len, tget 0 s.blk.hbm.err (from_ (64 * hp + i) / 32) = 0) →
    Effect (.pumpCommandComplete k) s (fun c =>
      (∀ ck i, i < 40960 → cbyte c ck i = if 64 * team ≤ ck ∧ 64 * line ≤ 40960 * (ck - 64 * team) + i ∧
          40960 * (ck - 64 * team) + i < 64 * (line + len)
        then tget 0 s.blk.hbm.mem (from_ (64 * hp + (40960 * (ck - 64 * team) + i - 64 * line))) else cbyte s.blk ck i) ∧
      (pumpGet c team).q = r ∧ (∀ j, j ≠ team → pumpGet c j = pumpGet s.blk j) ∧
      { c with die := { c.die with cist := s.blk.die.cist, cistErr := s.blk.die.cistErr, pumps := s.blk.die.pumps } } = s.blk)

/-! ### Semaphores, fences and barriers (R171 to R174, R179, R182 to R200) -/

/-- An operation on a counter of the core's own team, where no thread waits for it: the new value, or the fault that leaves it; a
wait that finds its amount goes on at once, and one that does not is queued. -/
def Obligations.SemaphoreOperations : Prop :=
  ∀ (t : Thr) (x : Fields) (s : State) (p : Nat) (e : SemEnt) (n : Nat), padOf s.blk (teamKey t.core.team) = some p → x.d = 0 → x.a = 0 →
    (x.mod = 0 ∧ x.b = 0 ∧ n = x.imm.toNat / 4096 ∨ x.mod = 1 ∧ x.imm.toNat < 4096 ∧ n = ((thrGet s.blk (thrKey t)).rs x.b).toNat % 2 ^ 24) →
    let vid := x.imm.toNat % 4096
    let own := teamKey t.core.team
    let v := ctrGet s.blk own e.ctr
    let h := thrGet s.blk (thrKey t)
    let y := padGet s.blk p
    let core := coreGet s.blk (coreKey t.core)
    let counters := fun (c : Block) (z : Nat) => (∀ j i, i < 512 → ctrGet c j i = if j = own ∧ i = e.ctr then z else ctrGet s.blk j i) ∧
      OthersKeep s.blk c t
    let dieBut := fun (c : Block) (w : List Waiter) => { c with die := { c.die with
      thr := s.blk.die.thr, cores := s.blk.die.cores, ctr := s.blk.die.ctr, ctrErr := s.blk.die.ctrErr, waiters := w } }
    tget none y.sem vid = some e → e.ctr < 512 → (y.col + e.u) * 59 + (y.row + e.v) = own → tget 0 s.blk.die.ctrErr (512 * own + e.ctr) = 0 →
    tget 0 s.blk.die.semErr (4096 * own + vid) = 0 → (∀ w ∈ s.blk.die.waiters, ¬(w.team = own ∧ w.ctr = e.ctr)) →
    (Issues s.blk t (.sadd t x) [] → NextOk s.blk t → v + n ≤ 16777215 → Effect (.sadd t x) s (fun c =>
      counters c (v + n) ∧ thrGet c (thrKey t) = nextThr s.blk t ∧ SameCore s.blk c t ∧ dieBut c s.blk.die.waiters = s.blk)) ∧
    (Issues s.blk t (.sadd t x) [] → NextOk s.blk t → 16777215 < v + n → Effect (.sadd t x) s (fun c =>
      counters c v ∧ thrGet c (thrKey t) = nextThr s.blk t ∧ ∃ r, c.reports = s.blk.reports ++ [r] ∧ r.source = 0x101 ∧ r.cls = contained)) ∧
    (Issues s.blk t (.ssub t x) [] → NextOk s.blk t → n ≤ v → Effect (.ssub t x) s (fun c =>
      counters c (v - n) ∧ thrGet c (thrKey t) = nextThr s.blk t ∧ SameCore s.blk c t ∧ dieBut c s.blk.die.waiters = s.blk)) ∧
    (Issues s.blk t (.ssub t x) [] → NextOk s.blk t → v < n → Effect (.ssub t x) s (fun c =>
      counters c v ∧ thrGet c (thrKey t) = nextThr s.blk t ∧ ∃ r, c.reports = s.blk.reports ++ [r] ∧ r.source = 0x100 ∧ r.cls = contained)) ∧
    (∀ f ∈ ([(.waitge, .waitge, v), (.take, .take, v - n)] : List ((Thr → Fields → Instr) × SemOp × Nat)), Issues s.blk t (f.1 t x) [] →
      (n ≤ v → Effect (f.1 t x) s (fun c => counters c f.2.2 ∧ thrGet c (thrKey t) = { restThr s.blk t with wait := none } ∧
        CoreIs c t { core with napping := false } ∧ dieBut c s.blk.die.waiters = s.blk)) ∧
      (v < n → Effect (f.1 t x) s (fun c => counters c v ∧
        thrGet c (thrKey t) = { restThr s.blk t with
          st := .waiting, wait := some ⟨f.2.1, false, vid, own, e.ctr, n, false, false, false, false, y.cycles, max 1024 h.wtimeout.toNat⟩ } ∧
        c.die.waiters = s.blk.die.waiters ++ [⟨own, e.ctr, n, decide (f.2.1 = .take), thrKey t, false, vid⟩] ∧ SameCore s.blk c t ∧
        dieBut c s.blk.die.waiters = s.blk)))

/-- An operation on a counter of another team leaves as one semaphore packet, and an ID without a translation traps. -/
def Obligations.SemaphorePackets : Prop :=
  ∀ f ∈ ([(.sadd, .sadd), (.ssub, .ssub), (.waitge, .waitge), (.take, .take)] : List ((Thr → Fields → Instr) × SemOp)),
  ∀ (t : Thr) (x : Fields) (s : State) (p : Nat), padOf s.blk (teamKey t.core.team) = some p → x.d = 0 → x.a = 0 → x.mod = 0 → x.b = 0 →
    Issues s.blk t (f.1 t x) [] →
    let vid := x.imm.toNat % 4096
    let n := x.imm.toNat / 4096
    let y := padGet s.blk p
    tget 0 s.blk.die.semErr (4096 * teamKey t.core.team + vid) = 0 →
    (∀ e, tget none y.sem vid = some e → (y.col + e.u) * 59 + (y.row + e.v) ≠ teamKey t.core.team → NextOk s.blk t →
      let far := (y.col + e.u) * 59 + (y.row + e.v)
      Effect (f.1 t x) s (fun c =>
        c.die.mesh = s.blk.die.mesh ++ [packet (.core t.core) (teamOf far) p (.sem f.2 e.ctr n vid (thrKey t))] ∧
        thrGet c (thrKey t) = (if f.2 = .waitge ∨ f.2 = .take then
          { restThr s.blk t with
            st := .waiting, wait := some ⟨f.2, false, vid, far, e.ctr, n, true, false, false, false, y.cycles,
              max 1024 (thrGet s.blk (thrKey t)).wtimeout.toNat⟩ }
          else nextThr s.blk t) ∧
        SameCore s.blk c t ∧ OthersKeep s.blk c t ∧
        { c with die := { c.die with thr := s.blk.die.thr, cores := s.blk.die.cores, mesh := s.blk.die.mesh } } = s.blk)) ∧
    (tget none y.sem vid = none → Effect (f.1 t x) s (fun c => TrapTaken s.blk c t .semUnmapped 0))

/-- The service of a counter that an `SADD` runs: the waiters of other counters stay; of its own, in arrival order, no `TAKE` is served
after one that was not, every waiter served found its amount, the value is what is left after the amounts of the `TAKE`s served,
and nobody still queued could have been served first. -/
def Obligations.ServiceInArrivalOrder : Prop :=
  ∀ (k : CoreId) (dst : TeamId) (s : State) (p q ctr n vid thr : Nat) (flits : List Nat), InPad s.blk (teamKey dst) q → ctr < 512 →
    let m : MPkt := ⟨.core k, dst, p, .sem .sadd ctr n vid thr, flits, false⟩
    Moves s.blk m → m.there = true →
    tget 0 s.blk.die.ctrErr (512 * teamKey dst + ctr) = 0 → ctrGet s.blk (teamKey dst) ctr + n ≤ 16777215 →
    let mine := s.blk.die.waiters.filter (fun w => decide (w.team = teamKey dst) && decide (w.ctr = ctr))
    Effect (.semaphoreOperationPacket (.core k) dst .good) s (fun c =>
      ∃ served : List Bool, served.length = mine.length ∧
        let z := mine.zip served
        let takes := z.filter (fun e => e.1.take)
        let taken := takes.filter (fun e => e.2)
        (∃ j, ∀ i < takes.length, (takes.getD i (⟨0, 0, 0, false, 0, false, 0⟩, false)).2 = decide (i < j)) ∧
        ctrGet c (teamKey dst) ctr + (taken.map (fun e => e.1.n)).sum = ctrGet s.blk (teamKey dst) ctr + n ∧
        (∀ e ∈ z, e.1.take = false → e.2 = false → ctrGet c (teamKey dst) ctr < e.1.n) ∧
        c.die.waiters.filter (fun w => decide (w.team = teamKey dst) && decide (w.ctr = ctr)) = (z.filter (fun e => !e.2)).map (·.1) ∧
        c.die.waiters.filter (fun w => !(decide (w.team = teamKey dst) && decide (w.ctr = ctr))) =
          s.blk.die.waiters.filter (fun w => !(decide (w.team = teamKey dst) && decide (w.ctr = ctr))) ∧
        c.die.mesh = s.blk.die.mesh.erase m)

/-- `FENCE` goes on where what it waits for is done, and otherwise leaves the thread stalled at the same instruction. -/
def Obligations.FenceWaits : Prop :=
  ∀ (t : Thr) (x : Fields) (s : State), x.d = 0 → x.a = 0 → x.b = 0 → x.imm = 0 → (x.mod = 1 ∨ x.mod = 2 ∨ x.mod = 3) →
    Issues s.blk t (.fence t x) [] →
    let requests := (coreGet s.blk (coreKey t.core)).outstanding = 0
    let pumps := ∀ c ∈ (pumpGet s.blk (teamKey t.core.team)).q, c.thr ≠ thrKey t
    ((x.mod ≠ 2 → requests) → (x.mod ≠ 1 → pumps) → NextOk s.blk t →
      Effect (.fence t x) s (fun c => thrGet c (thrKey t) = nextThr s.blk t ∧ OnlyThread s.blk c t ∧ SameCore s.blk c t)) ∧
    (x.mod ≠ 2 ∧ ¬requests ∨ x.mod ≠ 1 ∧ ¬pumps →
      Effect (.fence t x) s (fun c => thrGet c (thrKey t) = { thrGet s.blk (thrKey t) with st := .stalled, prev := pcOf s.blk t } ∧
        OnlyThread s.blk c t ∧ SameCore s.blk c t))

/-- `ARRIVE` at a barrier beside barrier 0: it counts in the parity of the thread's round; the arrival that fills the open round opens
the next and releases the threads that wait for it, and an `ARRIVE.W` that does not fill it waits. -/
def Obligations.ArriveCounts : Prop :=
  ∀ (t : Thr) (x : Fields) (s : State) (p : Nat), InPad s.blk (teamKey t.core.team) p → x.d = 0 → x.a = 0 → x.b = 0 →
    x.imm.toNat < 256 → x.mod.toNat < 2 → x.imm ≠ 0 → Issues s.blk t (.arrive t x) [] → NextOk s.blk t →
    tget 0 s.blk.die.nodeErr (teamKey t.core.team) = 0 →
    let h := thrGet s.blk (thrKey t)
    let y := padGet s.blk p
    let nb := x.imm.toNat
    let b := y.bar nb
    let mine := tget 0 y.rounds (roundKey y nb (thrKey t))
    let counted : Bar := { b with even := b.even + (if mine % 2 = 0 then 1 else 0), odd := b.odd + (if mine % 2 = 0 then 0 else 1) }
    let barrier := fun (c : Block) (z : Bar) =>
      (∀ m, (padGet c p).bar m = if m = nb then z else y.bar m) ∧
      (∀ k, tget 0 (padGet c p).rounds k = if k = roundKey y nb (thrKey t) then (mine + 1) % 4 else tget 0 y.rounds k) ∧
      { padGet c p with bars := y.bars, rounds := y.rounds } = y ∧ (∀ q, q ≠ p → padGet c q = padGet s.blk q) ∧
      { c with pads := s.blk.pads, die := { c.die with thr := s.blk.die.thr, cores := s.blk.die.cores } } = s.blk
    nb < y.env.barrierCount → y.inMask nb (thrKey t) = true → b.span = false → h.wait = none → mine < 4 → b.opened < 4 →
    ((mine = b.opened ∨ mine = (b.opened + 1) % 4) → (if b.opened % 2 = 0 then counted.even else counted.odd) ≠ b.need →
      Effect (.arrive t x) s (fun c => barrier c counted ∧ OthersKeep s.blk c t ∧ SameCore s.blk c t ∧
        thrGet c (thrKey t) = (if x.mod = 1 then
          { restThr s.blk t with
            st := .waiting, wait := some ⟨.waitge, true, nb, 0, 0, mine, false, false, false, false, y.cycles, max 1024 h.wtimeout.toNat⟩ }
          else nextThr s.blk t))) ∧
    (mine = b.opened → (if b.opened % 2 = 0 then counted.even else counted.odd) = b.need → b.need ≠ 0 →
      Effect (.arrive t x) s (fun c =>
        barrier c ⟨b.need, (b.opened + 1) % 4, if mine % 2 = 0 then 0 else counted.even, if mine % 2 = 0 then counted.odd else 0,
          b.span, b.home, false⟩ ∧
        thrGet c (thrKey t) = (if x.mod = 1 then { restThr s.blk t with wait := none } else nextThr s.blk t) ∧
        (∀ k w, k ≠ thrKey t → (thrGet s.blk k).wait = some w → w.barrier = true → w.vid = nb → padOf s.blk (k / 256) = some p →
          w.n = b.opened → thrGet c k = { thrGet s.blk k with st := .ready, wait := none }) ∧
        (∀ k, k ≠ thrKey t → ((thrGet s.blk k).wait = none ∨ ∃ w, (thrGet s.blk k).wait = some w ∧ (w.barrier = false ∨ w.vid ≠ nb)) →
          thrGet c k = thrGet s.blk k)))

/-- The life of a wait in another team or at a barrier: a refused wait is sent again; an expired one asks to be cancelled; the cancel
removes what is still queued and raises `WAIT_TIMEOUT`, and lets a release stand; the release reply lets the thread go on. -/
def Obligations.WaitLife : Prop :=
  ∀ (t : Thr) (s : State) (w : Wait), (thrGet s.blk (thrKey t)).wait = some w → (thrGet s.blk (thrKey t)).st = .waiting →
    let h := thrGet s.blk (thrKey t)
    let only := fun (c : Block) (g : Thread) => thrGet c (thrKey t) = g ∧ (∀ k, k ≠ thrKey t → thrGet c k = thrGet s.blk k)
    (∀ p, padOf s.blk (teamKey t.core.team) = some p → w.refused = true → Effect (.waitRetryResend t) s (fun c =>
      only c { h with wait := some { w with refused := false } } ∧
      c.die.mesh = s.blk.die.mesh ++ [packet (.core t.core) (teamOf w.team) p (.sem w.op w.ctr w.n w.vid (thrKey t))] ∧
      { c with die := { c.die with thr := s.blk.die.thr, mesh := s.blk.die.mesh } } = s.blk)) ∧
    (∀ p, padOf s.blk (teamKey t.core.team) = some p →
      (w.since + 10 * w.limit ≤ (padGet s.blk p).cycles →
        Effect (.waitTimeout t) s (fun c => only c { h with wait := some { w with cancel := true } } ∧
          { c with die := { c.die with thr := s.blk.die.thr } } = s.blk)) ∧
      ((padGet s.blk p).cycles < w.since + 10 * w.limit → Effect (.waitTimeout t) s (fun c => c = s.blk))) ∧
    (w.cancel = true → (w.barrier = false → ∀ m ∈ s.blk.die.mesh, ∀ ctr n vid,
        m.body ≠ .sem .waitge ctr n vid (thrKey t) ∧ m.body ≠ .sem .take ctr n vid (thrKey t)) →
      (w.released = true → Effect (.waitCancelArrival t) s (fun c => only c { h with wait := some { w with cancel := false } } ∧
        { c with die := { c.die with thr := s.blk.die.thr } } = s.blk)) ∧
      (w.released = false → Effect (.waitCancelArrival t) s (fun c => only c { h with wait := none } ∧
        c.die.waiters = s.blk.die.waiters.filter (fun q => decide (q.thr ≠ thrKey t)) ∧
        (∃ r, c.reports = s.blk.reports ++ [r] ∧ r.source = 0x102 ∧ r.cls = contained) ∧
        { c with reports := s.blk.reports, die := { c.die with thr := s.blk.die.thr, waiters := s.blk.die.waiters } } = s.blk))) ∧
    (w.released = true → Effect (.releaseReply t) s (fun c => only c { h with st := .ready, wait := none } ∧
      coreGet c (coreKey t.core) = { coreGet s.blk (coreKey t.core) with napping := false } ∧
      (∀ k, k ≠ coreKey t.core → coreGet c k = coreGet s.blk k) ∧
      { c with die := { c.die with thr := s.blk.die.thr, cores := s.blk.die.cores } } = s.blk))

/-! ### Threads, special registers and traps (R147, R148, R175 to R178) -/

/-- `NOP`, `HALT` and `TSTART`. -/
def Obligations.ThreadControl : Prop :=
  ∀ (t : Thr) (x : Fields) (s : State), x.d = 0 → x.mod = 0 →
    let h := thrGet s.blk (thrKey t)
    let core := coreGet s.blk (coreKey t.core)
    let u := coreKey t.core * 4 + x.imm.toNat
    (x.a = 0 → x.b = 0 → x.imm = 0 → Issues s.blk t (.nop t x) [] → NextOk s.blk t → Effect (.nop t x) s (fun c =>
      thrGet c (thrKey t) = nextThr s.blk t ∧ OnlyThread s.blk c t ∧ SameCore s.blk c t)) ∧
    (x.a = 0 → x.b = 0 → x.imm = 0 → Issues s.blk t (.halt t x) [] → Effect (.halt t x) s (fun c =>
      thrGet c (thrKey t) = { restThr s.blk t with st := .parked } ∧ OnlyThread s.blk c t ∧ SameCore s.blk c t)) ∧
    (∀ p, padOf s.blk (teamKey t.core.team) = some p → x.imm.toNat < 4 → u ≠ thrKey t → (thrGet s.blk u).st = .parked →
      Issues s.blk t (.tstart t x) [] → NextOk s.blk t → Effect (.tstart t x) s (fun c =>
        { thrGet c u with s := [] } = { Thread.parked with st := .ready, pc := h.rs x.a, prev := h.rs x.a, cyc0 := (padGet s.blk p).cycles } ∧
        (∀ r, (thrGet c u).rs r = if r = 1 then h.rs x.b else 0) ∧
        thrGet c (thrKey t) = nextThr s.blk t ∧ (∀ k, k ≠ u → k ≠ thrKey t → thrGet c k = thrGet s.blk k) ∧
        CoreIs c t { core with napping := false } ∧ (∀ k, k ≠ coreKey t.core → coreGet c k = coreGet s.blk k) ∧
        { c with die := { c.die with thr := s.blk.die.thr, cores := s.blk.die.cores } } = s.blk)) ∧
    (x.imm.toNat < 4 → (u = thrKey t ∨ (thrGet s.blk u).st ≠ .parked) → Issues s.blk t (.tstart t x) [] →
      Effect (.tstart t x) s (fun c => TrapTaken s.blk c t .threadState 0))

/-- `MFSR` reads, and `MTSR` writes, the special registers of R176; `DTIME_LO` latches `DTIME_HI`; an index that is not in the table,
and for `MTSR` one that is read-only, is `ILLEGAL`. -/
def Obligations.SpecialRegisters : Prop :=
  ∀ (t : Thr) (x : Fields) (s : State) (p : Nat), padOf s.blk (teamKey t.core.team) = some p → x.b = 0 → x.mod = 0 → x.imm.toNat < 256 →
    let h := thrGet s.blk (thrKey t)
    let core := coreGet s.blk (coreKey t.core)
    let y := padGet s.blk p
    let u := t.core.team.col.val - y.col
    let v := t.core.team.row.val - y.row
    let lo := BitVec.ofNat 32 s.blk.time
    let hi := BitVec.ofNat 32 (s.blk.time / 2 ^ 32)
    let w := h.rs x.a
    (∀ e ∈ ([(0x00, BitVec.ofNat 32 t.th.val, h.dtHi), (0x01, BitVec.ofNat 32 (64 * (v * y.env.width + u) + t.core.cx.val), h.dtHi),
        (0x02, BitVec.ofNat 32 (u + 2 ^ 8 * v + 2 ^ 16 * t.core.cx.val), h.dtHi),
        (0x03, BitVec.ofNat 32 (y.env.width + 2 ^ 8 * y.env.height), h.dtHi), (0x04, h.astat, h.dtHi), (0x05, h.wtimeout, h.dtHi),
        (0x06, h.tvec, h.dtHi), (0x07, h.tcause, h.dtHi), (0x08, h.tpc, h.dtHi), (0x09, h.tval, h.dtHi),
        (0x0A, BitVec.ofNat 32 ((y.cycles - h.cyc0) / 10), h.dtHi), (0x0B, lo, some hi), (0x0C, h.dtHi.getD hi, none),
        (0x0D, core.sr.extractLsb' 0 32, h.dtHi), (0x0E, core.sr.extractLsb' 32 32, h.dtHi)] : List (Nat × Word × Option Word)),
      x.imm.toNat = e.1 → x.a = 0 → u < 2 ^ 8 → v < 2 ^ 8 → y.env.width < 2 ^ 8 → Issues s.blk t (.mfsr t x) [] → NextOk s.blk t →
      Effect (.mfsr t x) s (fun c =>
        WritesS h (thrGet c (thrKey t)) x.d e.2.1 ∧ { thrGet c (thrKey t) with s := h.s } = { nextThr s.blk t with dtHi := e.2.2 } ∧
        OnlyThread s.blk c t ∧ SameCore s.blk c t)) ∧
    (∀ e ∈ ([(0x04, { nextThr s.blk t with astat := h.astat &&& ~~~w }, core), (0x05, { nextThr s.blk t with wtimeout := w }, core),
        (0x06, { nextThr s.blk t with tvec := w }, core), (0x07, { nextThr s.blk t with tcause := w }, core),
        (0x0D, nextThr s.blk t, { core with sr := core.sr.extractLsb' 32 32 ++ w }),
        (0x0E, nextThr s.blk t, { core with sr := w ++ core.sr.extractLsb' 0 32 })] : List (Nat × Thread × CoreS)),
      x.imm.toNat = e.1 → x.d = 0 → Issues s.blk t (.mtsr t x) [] → NextOk s.blk t →
      Effect (.mtsr t x) s (fun c => thrGet c (thrKey t) = e.2.1 ∧ CoreIs c t e.2.2 ∧ OnlyThread s.blk c t)) ∧
    (0x0F ≤ x.imm.toNat → x.a = 0 → Issues s.blk t (.mfsr t x) [] → Effect (.mfsr t x) s (fun c => TrapTaken s.blk c t .illegal 0)) ∧
    (x.imm.toNat ∉ [0x04, 0x05, 0x06, 0x07, 0x0D, 0x0E] → x.d = 0 → Issues s.blk t (.mtsr t x) [] →
      Effect (.mtsr t x) s (fun c => TrapTaken s.blk c t .illegal 0))

/-- `TRAP` raises its software trap; an opcode outside the map is `ILLEGAL` whatever else the word holds; a PC that cannot be fetched
is `FETCH_RANGE`, never handled; and a thread that neither is ready nor stalled executes nothing. -/
def Obligations.TrapsAndIssue : Prop :=
  (∀ (t : Thr) (x : Fields) (s : State), x.d = 0 → x.a = 0 → x.b = 0 → x.mod = 0 → 0x10 ≤ x.imm.toNat → x.imm.toNat < 256 →
    Issues s.blk t (.trap t x) [] → Effect (.trap t x) s (fun c => TrapTaken s.blk c t (.software x.imm.toNat) 0)) ∧
  (∀ (t : Thr) (x : Fields) (s : State) (op : Nat) (i : Instr), opcodeMap op t x = some i →
    let h := thrGet s.blk (thrKey t)
    let core := coreGet s.blk (coreKey t.core)
    let can := (h.st = .ready ∨ h.st = .stalled) ∧ (∃ p, InPad s.blk (teamKey t.core.team) p) ∧ core.await = [] ∧
      ∀ i < (t.th.val + 7 - core.last) % 4, (thrGet s.blk (4 * coreKey t.core + (core.last + 1 + i) % 4)).st ≠ .ready
    (h.st ≠ .ready → h.st ≠ .stalled → exec i s = .next s) ∧
    (can → pcOk s.blk (coreKey t.core) h.pc = true → CleanLine s.blk (coreKey t.core) (h.pc.toNat / 64) →
      opDefined (fld (heldWord s.blk (coreKey t.core) h.pc) 56 8) = false →
      Effect i s (fun c => TrapTaken s.blk c t .illegal 0)) ∧
    (can → (h.pc.toNat % 8 ≠ 0 ∨ 64 * core.cB ≤ h.pc.toNat) →
      Effect i s (fun c => (thrGet c (thrKey t)).st = .faulted ∧ OthersKeep s.blk c t ∧
        ∃ r, c.reports = s.blk.reports ++ [r] ∧ r.source = 0x108 ∧ fld r.d1 21 8 = 0x02 ∧ fld r.d2 0 16 = h.prev.toNat % 65536)))

/-- A scalar, branch, or vector instruction with a field it does not use, or bit 4 of a vector field, set is `ILLEGAL` and has no other
effect. -/
def Obligations.UnusedFieldsTrap : Prop :=
  ∀ (t : Thr) (x : Fields) (s : State),
    (∀ e ∈ ([.add, .sub, .andOp, .orOp, .xor, .shl, .shr, .sra, .slt, .sltu, .mul, .mulh, .mulhu, .minOp, .maxOp]
        : List (Thr → Fields → Instr)), (x.mod ≠ 0 ∨ x.imm ≠ 0) → Issues s.blk t (e t x) [] →
      Effect (e t x) s (fun c => TrapTaken s.blk c t .illegal 0)) ∧
    (∀ e ∈ ([.addi, .subi, .andi, .ori, .xori, .shli, .shri, .srai, .slti, .sltui, .muli, .mulhi, .mulhui, .mini, .maxi]
        : List (Thr → Fields → Instr)), (x.b ≠ 0 ∨ x.mod ≠ 0) → Issues s.blk t (e t x) [] →
      Effect (e t x) s (fun c => TrapTaken s.blk c t .illegal 0)) ∧
    (∀ e ∈ ([.beq, .bne, .blt, .bge, .bltu, .bgeu] : List (Thr → Fields → Instr)), (x.d ≠ 0 ∨ x.mod ≠ 0) → Issues s.blk t (e t x) [] →
      Effect (e t x) s (fun c => TrapTaken s.blk c t .illegal 0)) ∧
    (∀ e ∈ ([.vadd, .vsub, .vmul, .vfma, .vmin, .vmax, .vcmp, .vand, .vor, .vxor, .vsel] : List (Thr → Fields → Instr)),
      (16 ≤ x.d.toNat ∨ 16 ≤ x.a.toNat ∨ 16 ≤ x.b.toNat ∨ x.imm ≠ 0) → Issues s.blk t (e t x) [x.d.toNat, x.a.toNat, x.b.toNat] →
      Effect (e t x) s (fun c => TrapTaken s.blk c t .illegal 0))

/-! ### Doorbells, descriptors and rings (R278 to R306) -/

/-- A snoop of a held doorbell line is answered and the line re-read; a poll re-reads every held line; a re-read that returns takes
over the counts that pass R283, and a submission count that does not puts the pair into its error state. -/
def Obligations.Doorbells : Prop :=
  ∀ (s : State) (q : Fin 1024),
    let x := rpGet s.blk q
    (s.blk.flt.fatal = false → x.door = 1 → Effect (.doorbellInvalidation (.pair q)) s (fun c =>
      c.out = s.blk.out ++ [.snoopAck (.pair q), .readShared (.pair q)] ∧ rpGet c q = { x with door := 2 } ∧ OnlyPair s.blk c q ∧
      OnlyHost s.blk c)) ∧
    (s.blk.flt.fatal = false → 2 ≤ x.door → Effect (.doorbellInvalidation (.pair q)) s (fun c =>
      c.out = s.blk.out ++ [.snoopAck (.pair q)] ∧ rpGet c q = { x with door := 3 } ∧ OnlyPair s.blk c q ∧ OnlyHost s.blk c)) ∧
    (regFld s.blk 0x20204 0 16 = 0 ∨ s.blk.time < s.blk.host.polled + 1000 * regFld s.blk 0x20204 0 16 → exec .doorbellPoll s = .next s) ∧
    (regFld s.blk 0x20204 0 16 ≠ 0 → hostStopped s.blk = false → s.blk.host.polled + 1000 * regFld s.blk 0x20204 0 16 ≤ s.blk.time →
      Effect .doorbellPoll s (fun c => c.host.polled = s.blk.time ∧
      (∀ r < 1024, rpGet c r = { rpGet s.blk r with door := if (rpGet s.blk r).door = 1 then 2 else (rpGet s.blk r).door }) ∧
      c.out = s.blk.out ++ ((List.finRange 1024).filter (fun r : Fin 1024 => decide ((rpGet s.blk r.val).door = 1))).map (fun r => Out.readShared (.pair r)) ++
        (if s.blk.host.evtDoor = 1 then [.readShared .events] else []) ∧ OnlyHost s.blk c)) ∧
    (∀ tail cq rq : Word, hostStopped s.blk = false → x.st = 1 ∨ x.st = 2 → x.replay = [] → x.unreserved = false → slotsOn s.blk q = [] →
      s.blk.pair.orphans = [] →
      ahead cq.toNat x.cqHead ≤ ahead x.cqTail x.cqHead → ahead rq.toNat x.rqHead ≤ ahead x.rqTail x.rqHead →
      (x.door = 2 → ahead tail.toNat x.sqHead ≤ sqSize s.blk q → Effect (.doorbellRereadReturn (.pair q) tail cq rq) s (fun c =>
        rpGet c q = { x with door := 1, sqTail := tail.toNat, cqHead := cq.toNat, rqHead := rq.toNat,
                             cqFull := if cq.toNat = x.cqHead then x.cqFull else false } ∧
        OnlyPair s.blk c q ∧ OnlyHost s.blk c ∧ c.out = s.blk.out)) ∧
      (x.door = 3 → ahead tail.toNat x.sqHead ≤ sqSize s.blk q → Effect (.doorbellRereadReturn (.pair q) tail cq rq) s (fun c =>
        rpGet c q = { x with door := 2, sqTail := tail.toNat, cqHead := cq.toNat, rqHead := rq.toNat,
                             cqFull := if cq.toNat = x.cqHead then x.cqFull else false } ∧
        OnlyPair s.blk c q ∧ OnlyHost s.blk c ∧ c.out = s.blk.out ++ [.readShared (.pair q)])) ∧
      (x.door = 2 → sqSize s.blk q < ahead tail.toNat x.sqHead → Effect (.doorbellRereadReturn (.pair q) tail cq rq) s (fun c =>
        (rpGet c q).st = 3 ∧ (rpGet c q).sqTail = x.sqTail ∧ regFld c (0x20030 + 2 ^ 22 * (q.val + 1)) 2 1 = 1)))

/-- The module fetches a descriptor of the pair whose turn it is, after it has reserved its completion entries; a malformed one
completes with 0x0105; a completion ring without room stops the fetch. -/
def Obligations.DescriptorFetch : Prop :=
  ∀ (s : State) (q : Fin 1024) (d : Line),
    let x := rpGet s.blk q
    let need := if fld d 0 8 = 0x03 then 2 else 1
    ringsRun s.blk = true → canFetch s.blk q = true → s.blk.host.visit = q → s.blk.host.taken < 16 → x.fetched = [] → x.fence = none →
    x.reading = none →
    (ahead x.cqTail x.cqHead + x.reserved + need ≤ cqSize s.blk q → formOk s.blk d = true → Effect (.descriptorFetch q d) s (fun c =>
      rpGet c q = { x with sqHead := (x.sqHead + 1) % 2 ^ 32, reserved := x.reserved + need, fetched := [d],
                           order := x.order ++ [s.blk.host.fetches] } ∧
      c.host.taken = s.blk.host.taken + 1 ∧ c.host.fetches = s.blk.host.fetches + 1 ∧ (∀ r, r ≠ q.val → rpGet c r = rpGet s.blk r) ∧ OnlyHost s.blk c ∧ c.out = s.blk.out)) ∧
    (ahead x.cqTail x.cqHead + x.reserved + need ≤ cqSize s.blk q → formOk s.blk d = false → CanComplete s.blk q →
      Effect (.descriptorFetch q d) s (fun c =>
        let y := { x with
          sqHead := (x.sqHead + 1) % 2 ^ 32, reserved := x.reserved + need, order := (x.order ++ [s.blk.host.fetches]).drop 1 }
        rpGet c q = compPair s.blk q need y ∧ OnlyHost s.blk c ∧
        c.out = s.blk.out ++ [compOut (rpPut s.blk q y) q (fld d 32 32) 0x0105 (fld d 0 8) (dObj d) 0])) ∧
    (cqSize s.blk q < ahead x.cqTail x.cqHead + x.reserved + need → Effect (.descriptorFetch q d) s (fun c =>
      rpGet c q = { x with cqFull := true } ∧ OnlyPair s.blk c q ∧ OnlyHost s.blk c ∧ c.out = s.blk.out))

/-- A `NOP` descriptor completes `OK`; a `FENCE` holds back what follows until the completions it waits for are written, and then
completes `OK`.  The descriptors of images and paddocks complete with their own effect: `MODEL_STAGE` of an image that is staged and
`RELEASE` of one of its references (R220, R222), `PADDOCK_LOAD` at a free rectangle (R223), `PADDOCK_UNLOAD` by drain and by restart
(R233, R237), `GAIT_SET` (R437); and the work behind them ends with its completion: the copy of an image without weights in HBM
(R221), the load (R228) and the unload (R237). -/
def Obligations.NopAndFenceDescriptors : Prop :=
  (∀ (s : State) (q : Fin 1024) (d : Line) (k scope : Nat),
    let x := rpGet s.blk q
    (CanComplete s.blk q → x.fetched = [d] → x.fence = none → x.reading = none → fld d 0 8 = 0x31 → formOk s.blk d = true →
      Effect (.nopDescriptor q) s (fun c =>
        c.out = s.blk.out ++ [compOut s.blk q (fld d 32 32) 0 0x31 0 0] ∧ rpGet c q = compPair s.blk q 1 (checked x) ∧
        OnlyPair s.blk c q ∧ OnlyHost s.blk c)) ∧
    (s.blk.flt.fatal = false → x.fetched = [d] → x.fence = none → x.reading = none → fld d 0 8 = 0x30 → formOk s.blk d = true →
      Effect (.fenceDescriptor q) s (fun c =>
        rpGet c q = { checked x with fence := some (dCookie d, fld d 64 8) } ∧ OnlyPair s.blk c q ∧ OnlyHost s.blk c ∧
        c.out = s.blk.out)) ∧
    (CanComplete s.blk q → x.fence = some (k, scope) → x.fetched = [] → x.reading = none → x.opens = 0 → x.held = [] → s.blk.pair.held = [] →
      (scope = 0 ∨ pairTurns s.blk q = []) → Effect (.fenceDescriptorDone q) s (fun c =>
        c.out = s.blk.out ++ [compOut s.blk q (k % 2 ^ 32) 0 (k / 2 ^ 32 % 256) 0 0] ∧
        rpGet c q = compPair s.blk q 1 { x with fence := none } ∧ OnlyPair s.blk c q ∧ OnlyHost s.blk c))) ∧
  (∀ (s : State) (q : Fin 1024) (d : Line), isReady s.blk 8 0 = true → s.blk.host.evtOn = false →
    let p := fld d 64 6
    let y := padGet s.blk p
    (∀ (list : List (Option ChunkEntry)) (l : List Byte) (a : Nat) (n : Nat) (g : Stage), AtHead s.blk q d 0x10 → fld d 64 8 = 0 →
      allReady s.blk 2 8 = true → fld d 72 8 ≠ 0 → (list.take (fld d 192 32)).head?.bind chunkAddr = some a →
      sameImage s.blk (imgHash (listRead (padTo 4096 l))) = some n → stageGet s.blk n = some g → g.copying = false →
      Effect (.modelStageStage q list (some l)) s (fun c => DescDone (emit s.blk (.chunkRead a 4096)) c q d 0 n (g.refs + 1) [] ∧
        stageGet c n = some { g with refs := g.refs + 1 })) ∧
    (∀ g, AtHead s.blk q d 0x10 → fld d 64 8 = 1 → allReady s.blk 2 8 = true → stageGet s.blk (fld d 80 10) = some g → g.copying = false →
      g.releasing = false → 1 < g.refs → Effect (.modelStageRelease q) s (fun c => DescDone s.blk c q d 0 (fld d 80 10) (g.refs - 1) [] ∧
        stageGet c (fld d 80 10) = some { g with refs := g.refs - 1 })) ∧
    (∀ g k, AtHead s.blk q d 0x11 → allReady s.blk 2 8 = true → stageGet s.blk (fld d 64 10) = some g → g.copying = false →
      g.damaged = false → g.releasing = false → bit d 80 = false → (∀ i < g.env.width, fld d 88 8 + i < 80 → isReady s.blk 4 (fld d 88 8 + i) = true) →
      shortages s.blk g.env (max g.env.gait (fld d 104 2)) (freeTeams s.blk false) = [] →
      rectFree (freeTeams s.blk false) (fld d 88 8) (fld d 96 8) g.env.width g.env.height = true → k < 64 → (padGet s.blk k).st = .free →
      (∀ r < k, (padGet s.blk r).st ≠ .free) → Effect (.paddockLoad q) s (fun c => (padGet c k).st = .loading ∧ (padGet c k).col = fld d 88 8 ∧
        (padGet c k).row = fld d 96 8 ∧ (padGet c k).env = g.env ∧ (padGet c k).waiters = [(q.val, dCookie d)])) ∧
    (AtHead s.blk q d 0x12 → fld d 72 8 = 0 → y.st = .ready → Effect (.paddockUnloadDrain q) s (fun c =>
      (padGet c p).st = .draining ∧ (padGet c p).waiters = y.waiters ++ [(q.val, dCookie d)])) ∧
    (AtHead s.blk q d 0x12 → fld d 72 8 = 1 → y.st ≠ .free → y.tampered = false → Effect (.paddockUnloadRestart q) s (fun c =>
      DescDone s.blk c q d 0 p 0 [] ∧ ∃ r, c.reports = s.blk.reports ++ [r] ∧ r.source = 0x110 ∧ r.cls = contained)) ∧
    (AtHead s.blk q d 0x13 → y.st = .ready → Effect (.gaitSet q) s (fun c => DescDone s.blk c q d 0 p 0 [] ∧
      padGet c p = { y with target := max y.gait (min (gaitCap s.blk) (fld d 72 2)) }))) ∧
  (∀ (s : State) (n : Fin 1024) (chunks : List (Option (List Byte))) (g : Stage) (x : StageReq) (l : List Byte), stageGet s.blk n = some g →
    g.copying = true → g.reqs = [x] → x.win = none → CanComplete s.blk x.pair → chunkBytes chunks g.len = some l → l.length = g.len →
    imageOk (listRead l) = true → hashOf l = g.hash → g.env.hbmWeight = 0 →
    padTo (0x100 + 32 * sectCount (listRead l)) l = padTo (0x100 + 32 * sectCount (listRead l)) g.head → Effect (.stageCopyDone n chunks) s (fun c =>
      WorkDone s.blk c x.pair x.cookie 0 n 1 ∧ stageGet c n = some { g with copying := false, refs := 1, reqs := [] })) ∧
  (∀ (s : State) (p : Fin 64) (q k : Nat), s.blk.host.evtOn = false → let y := padGet s.blk p
    y.waiters = [(q, k)] → CanComplete s.blk q → y.env.split = false →
    (∀ r, y.st = .loading → rampsDone s.blk y y.run = true → readStage s.blk y.stage = (s.blk, some r) → y.row + y.env.height ≤ 59 →
      (∀ i ∈ y.teams, (pumpGet s.blk i).q = []) → Effect (.paddockLoadDone p) s (fun c =>
        WorkDone s.blk c q k 0 p 0 ∧ (padGet c p).st = .ready ∧ (padGet c p).waiters = [])) ∧
    (y.st = .draining → boundSlots s.blk p = [] → y.step = none → y.flows = [] → (∀ i ∈ y.teams, (pumpGet s.blk i).q = []) →
      Effect (.paddockUnloadDone p) s (fun c => WorkDone s.blk c q k 0 p 0 ∧ padGet c p = Pad.init)))

/-- A pair is enabled with its counts at 0 and its doorbell line read, and refused with `CFG_ERR` for a size out of range; a drain lets
its work end, after which it is disabled and says so; the event ring is enabled and disabled, and while it is enabled a write of its control
register stores the fields. -/
def Obligations.RingsEnableAndDrain : Prop :=
  ∀ (s : State) (w : Word),
    let q := regFld s.blk 0x20000 0 10
    let x := rpGet s.blk q
    let sizes := ringReg s.blk q 0x20008
    let sizeOk := fun lo => 6 ≤ fld sizes lo 5 ∧ fld sizes lo 5 ≤ 16
    (actServed s.blk = true → hostStopped s.blk = false →
      (w.getLsbD 0 = true → x.st = 0 → sizeOk 0 → sizeOk 8 → (w.getLsbD 1 = true → sizeOk 16) → x.held = [] → slotsOn s.blk q = [] →
        s.blk.pair.orphans = [] → Effect (.ringEnable w) s (fun c =>
          rpGet c q = { x with st := 1, sqHead := 0, sqTail := 0, cqTail := 0, cqHead := 0, rqTail := 0, rqHead := 0, reserved := 0,
                               cqFull := false, held := [], replay := [], unreserved := false, door := 2 } ∧
          regFld c (0x20030 + 2 ^ 22 * (q + 1)) 3 1 = 0 ∧ c.out = s.blk.out ++ [.readShared (.pair (Fin.ofNat 1024 q))] ∧
          OnlyPair s.blk c q ∧ { c with host := s.blk.host, out := s.blk.out, regs := s.blk.regs } = s.blk)) ∧
      (w.getLsbD 0 = true → ¬sizeOk 0 ∨ ¬sizeOk 8 ∨ w.getLsbD 1 = true ∧ ¬sizeOk 16 ∨ x.st ≠ 0 → Effect (.ringEnable w) s (fun c =>
          regFld c (0x20030 + 2 ^ 22 * (q + 1)) 3 1 = 1 ∧ (∀ o, o ≠ 0x20030 + 2 ^ 22 * (q + 1) → regGet c o = regGet s.blk o) ∧
          { c with regs := s.blk.regs } = s.blk)) ∧
      (w.getLsbD 0 = false → x.st = 1 ∨ x.st = 3 → Effect (.ringDrain w) s (fun c =>
          rpGet c q = { x with st := 2 } ∧ (∀ r, r ≠ q → rpGet c r = rpGet s.blk r) ∧ c.out = s.blk.out))) ∧
    (∀ p : Fin 1024, CanEvent s.blk → (rpGet s.blk p).st = 2 → (rpGet s.blk p).fetched = [] → (rpGet s.blk p).reading = none →
      (rpGet s.blk p).fence = none → (rpGet s.blk p).opens = 0 → (rpGet s.blk p).replay = [] → slotsOn s.blk p = [] →
      pairHolds s.blk p = false → Effect (.ringDisabled p) s (fun c =>
        rpGet c p = { rpGet s.blk p with st := 0, door := 0, reserved := 0 } ∧ (∀ r, r ≠ p.val → rpGet c r = rpGet s.blk r) ∧
        c.out = s.blk.out ++ [eventOut s.blk 6 p 0 0] ∧ c.host.evtTail = (s.blk.host.evtTail + 1) % 2 ^ 32 ∧ OnlyHost s.blk c)) ∧
    (actServed s.blk = true → s.blk.host.busy = false → s.blk.host.evtOn = false → w.getLsbD 0 = true → 6 ≤ fld w 8 5 → fld w 8 5 ≤ 16 →
      Effect (.evtEnable w) s (fun c =>
        c.host.evtOn = true ∧ c.host.evtHead = 0 ∧ c.host.evtDoor = 2 ∧ regGet c 0x20100 &&& 0x87FF1F01 = w &&& 0x87FF1F01 ∧
        ∃ l, c.out = s.blk.out ++ .readShared .events :: l)) ∧
    (actServed s.blk = true → s.blk.host.busy = false → s.blk.host.evtOn = false → w.getLsbD 0 = true → fld w 8 5 < 6 ∨ 16 < fld w 8 5 →
      exec (.evtEnable w) s = .next s) ∧
    (writeServed s.blk = true → s.blk.host.evtOn = true → w.getLsbD 0 = true → Effect (.evtEnable w) s (fun c =>
      regGet c 0x20100 &&& 0x87FF1F01 = w &&& 0x87FF1F01 ∧ { c with regs := s.blk.regs } = s.blk)) ∧
    (writeServed s.blk = true → w.getLsbD 0 = false → Effect (.evtEnable w) s (fun c =>
      c.host = { s.blk.host with evtOn := false, evtDoor := 0, earlyEvt := false } ∧
      { c with host := s.blk.host, regs := s.blk.regs } = s.blk))

/-- A host-interface reset, by its register or by a function-level reset, disables every ring, discards what was not checked and
suspends the promise of every turn in flight; its end lets HOSTIF write again; a retrain of the CXL link is such a reset that suspends
no promise and is reported. -/
def Obligations.HostInterfaceReset : Prop :=
  ∀ (s : State) (w : Word) (x8 : Bool),
    let reset := fun (c : Block) (susp : Bool) =>
      c.host.busy = true ∧ c.host.evtOn = false ∧ c.host.visit = 0 ∧
      (∀ q, rpGet c q = resetPair (rpGet s.blk q)) ∧ (∀ v, (vecGet c v).count = 0 ∧ (vecGet c v).masked = (vecGet s.blk v).masked) ∧
      (∀ n, slotGet c n = { slotGet s.blk n with turns := (slotGet s.blk n).turns.map (fun t =>
        { t with replay := true, suspended := susp || t.suspended }), held := (slotGet s.blk n).held.map (fun e => match e with
          | .closing m status flags => .closing m status (flags ||| 16)
          | e => e) }) ∧
      c.out = s.blk.out ∧ c.die = s.blk.die ∧ c.pads = s.blk.pads ∧ c.hbm = s.blk.hbm
    (writeServed s.blk = true → w.getLsbD 0 = true → fld w 24 8 = 0x4B → Effect (.hostifReset w) s (fun c => reset c true ∧
      c.reports = s.blk.reports)) ∧
    (writeServed s.blk = true → w.getLsbD 0 = false ∨ fld w 24 8 ≠ 0x4B → exec (.hostifReset w) s = .next s) ∧
    (isReady s.blk 1 0 = true → s.blk.flt.fatal = false → Effect .functionLevelReset s (fun c => reset c true ∧ c.reports = s.blk.reports)) ∧
    (s.blk.flt.fatal = false → Effect (.cxlLinkRetrain x8) s (fun c => reset c false ∧ c.host.degraded = x8 ∧
      c.reports.map (fun r => (r.source, r.cls)) = s.blk.reports.map (fun r => (r.source, r.cls)) ++
        (if x8 then [(0x340, corrected), (0x341, corrected)] else [(0x340, corrected)]))) ∧
    ((∀ e ∈ s.blk.flt.waits, e.1 ≠ 8) → s.blk.host.early = [] → s.blk.host.earlyEvt = false →
      (∀ v, (vecGet s.blk v).pend = true → (vecGet s.blk v).masked = true) → Effect .hostifResetDone s (fun c =>
      c = { s.blk with host := { s.blk.host with busy := false } }))

/-- A vector's message is sent when its moderation time expires and when it is unmasked while one pends; a masked vector sets its
pending bit. -/
def Obligations.MsixMessages : Prop :=
  ∀ (s : State) (v : Fin 2048), hostStopped s.blk = false →
    let x := vecGet s.blk v
    let others := fun c => (∀ u, u ≠ v.val → vecGet c u = vecGet s.blk u) ∧ { c.host with vecs := s.blk.host.vecs } = s.blk.host ∧
      OnlyHost s.blk c
    let t := regFld s.blk (0x2A000 + 4 * v.val) 8 16
    (x.count = 0 ∨ t = 0 ∨ s.blk.time < x.since + 100 * t → exec (.msixModerationTimeout v) s = .next s) ∧
    (0 < x.count → t ≠ 0 → x.since + 100 * t ≤ s.blk.time →
      (x.masked = false → Effect (.msixModerationTimeout v) s (fun c => c.out = s.blk.out ++ [.msix v x.addr x.data] ∧
        vecGet c v = { x with count := 0 } ∧ others c)) ∧
      (x.masked = true → Effect (.msixModerationTimeout v) s (fun c => c.out = s.blk.out ∧
        vecGet c v = { x with count := 0, pend := true } ∧ others c))) ∧
    (x.pend = true → Effect (.msixUnmask v) s (fun c => c.out = s.blk.out ++ [.msix v x.addr x.data] ∧
      vecGet c v = { x with masked := false, pend := false } ∧ others c)) ∧
    (x.pend = false → Effect (.msixUnmask v) s (fun c => c.out = s.blk.out ∧ vecGet c v = { x with masked := false } ∧ others c))

/-! ### Sessions and turns (R241 to R262) -/

/-- `SESSION_OPEN` fills the lowest free slot and completes `OK` with its number, or `NO_SLOT`; `SESSION_CLOSE` waits for the turns and
then frees the slot; a `TURN` is read; admission accepts it with the deadlines of its pace class, or refuses it; `PACE_APPLY` makes
the classes in range live; `SESS_SEL` captures a slot.  The turn that runs is served by steps: a step starts (R260), takes the lines of
its logits (R267) and commits its token (R265). -/
def Obligations.SessionsAndTurns : Prop :=
  (∀ (s : State) (q : Fin 1024) (d : Line) (n : Fin 16384), CanComplete s.blk q → (rpGet s.blk q).fetched = [d] →
    (rpGet s.blk q).fence = none → (rpGet s.blk q).reading = none → formOk s.blk d = true →
    let x := rpGet s.blk q
    let y := padGet s.blk (fld d 64 6)
    let dr := padGet s.blk (fld d 72 6)
    let w := (dWidths d).take (fld d 88 8)
    let z := slotGet s.blk n
    let rest := fun (c : Block) => { c with host := s.blk.host, out := s.blk.out, sess := { c.sess with slots := s.blk.sess.slots } } = s.blk ∧
      OnlyPair s.blk c q
    (fld d 0 8 = 0x01 → isReady s.blk 8 0 = true → z.st = 0 → (∀ m < n.val, (slotGet s.blk m).st ≠ 0) → y.st = .ready → y.peerDrain = false →
      y.env.logits = true → y.env.split = false → y.env.draft = false → (paceOf s.blk (fld d 80 4)).2.2.2 = true →
      (rpGet s.blk (fld d 96 10)).st ≠ 2 → (∀ k ∈ w, 1 ≤ k) → (∀ k ∈ dWidths d, k ≤ 16) → w.sum ≤ y.env.treeMax →
      (bit d 79 = true → dr.st = .ready ∧ dr.peerDrain = false ∧ dr.env.draft = true ∧ dr.env.vocab = y.env.vocab ∧ y.env.target = true ∧
        fld d 88 8 ≠ 0) →
      (y.tampered = true → bit (regGet s.blk 0x60000) 1 = false) → Effect (.sessionOpen q) s (fun c =>
        c.out = s.blk.out ++ [compOut s.blk q (fld d 32 32) 0 0x01 n 0] ∧ rpGet c q = compPair c q 1 (checked x) ∧ rest c ∧
        (∀ m, m ≠ n.val → slotGet c m = slotGet s.blk m) ∧
        (let o := slotGet c n
         o.st = 1 ∧ o.paddock = fld d 64 6 ∧ o.spec = bit d 79 ∧ o.draft = fld d 72 6 ∧ o.pace = fld d 80 4 ∧ o.ring = fld d 96 10 ∧
         o.levels = (if bit d 79 then fld d 88 8 else 0) ∧ o.seed.toNat = fld d 128 64 ∧ o.turns = [] ∧ o.position = 0 ∧
         o.nextSeq = 0 ∧ o.pending = false ∧ o.openedT = s.blk.time ∧
         o.topK = (if fld d 112 16 = 0 ∨ 256 < fld d 112 16 then 256 else fld d 112 16) ∧ o.closing = none))) ∧
    (fld d 0 8 = 0x01 → isReady s.blk 8 0 = true → (∀ m < 16384, (slotGet s.blk m).st ≠ 0) → Effect (.sessionOpen q) s (fun c =>
        c.out = s.blk.out ++ [compOut s.blk q (fld d 32 32) 0x0103 0x01 0 0] ∧ rest c ∧ c.sess = s.blk.sess)) ∧
    (fld d 0 8 = 0x02 → isReady s.blk 8 0 = true → fld d 64 14 = n → (z.st = 1 ∨ z.st = 2 ∨ z.st = 3) → z.closing = none →
      Effect (.sessionClose q) s (fun c => c.out = s.blk.out ∧ rest c ∧ rpGet c q = { checked x with opens := x.opens + 1 } ∧
        (∀ m, m ≠ n.val → slotGet c m = slotGet s.blk m) ∧ slotGet c n = { z with closing := some (q, dCookie d) })) ∧
    (fld d 0 8 = 0x02 → fld d 64 14 = n → z.st = 0 → Effect (.sessionClose q) s (fun c =>
      c.out = s.blk.out ++ [compOut s.blk q (fld d 32 32) 0x0104 0x02 n 0] ∧ rest c ∧ c.sess = s.blk.sess)) ∧
    (fld d 0 8 = 0x03 → ∀ l : List Word, fld d 64 14 = n → z.st ≠ 3 → x.st ≠ 0 → emergency s.blk = false →
      let p := if bit d 9 then inlinePrompt d else l.take (fld d 80 16)
      let k := (p.length + 1023) / 1024
      (∀ e ∈ p, fld e 18 14 = 0) → Effect (.turn q (some l)) s (fun c => c.out = s.blk.out ∧
        { c with host := s.blk.host, hbm := s.blk.hbm } = s.blk ∧ OnlyPair s.blk c q ∧
        c.hbm = { s.blk.hbm with spilling := s.blk.hbm.spilling.filter (fun m => m ≠ n.val) } ∧
        ∃ bl short, rpGet c q = { checked x with
            reading := some ⟨n, fld d 96 16, fld d 32 32, bit d 8, p, bl, short, 0, x.order.headD 0⟩ } ∧
          short = decide (262144 < (blocksUsed s.blk).length + k) ∧
          (short = false → bl.length = k ∧ ∀ i ∈ bl, i ∉ blocksUsed s.blk)))) ∧
  (∀ (s : State) (q : Fin 1024) (n : Fin 16384) (k : Nat), let z := slotGet s.blk n
    CanComplete s.blk q → z.turns = [] → z.held = [] → s.blk.pair.held = [] → z.closing = some (q.val, k) → ptEntries s.blk n = [] →
    Effect (.sessionCloseDone n) s (fun c => slotGet c n = Slot.free ∧ (∀ m, m ≠ n.val → slotGet c m = slotGet s.blk m) ∧
      c.out = s.blk.out ++ [compOut s.blk q (k % 2 ^ 32) 0 (k / 2 ^ 32 % 256) n 0] ∧
      rpGet c q = compPair c q 1 { rpGet s.blk q with opens := (rpGet s.blk q).opens - 1 } ∧ OnlyPair s.blk c q ∧ c.pads = s.blk.pads ∧
      c.hbm.mem = s.blk.hbm.mem)) ∧
  (∀ (s : State) (q : Fin 1024) (pages : List (Option (List Byte))) (r : Reading), CanComplete s.blk q → (rpGet s.blk q).fetched = [] →
    (rpGet s.blk q).fence = none → (rpGet s.blk q).reading = some r →
    let z := slotGet s.blk r.slot
    turnsFirst s.blk z r.place = true →
    let y := padGet s.blk z.paddock
    let v := paceOf s.blk z.pace
    let last := match z.turns.getLast? with
      | some t => t.cdl
      | none => s.blk.time
    let first := max s.blk.time last + 1000 * v.1 + v.2.1 * r.prompt.length
    let ends := first + (r.gen - 1) * (1000 * v.2.2.1)
    (z.st ≠ 3 → admitReady s.blk r = 0 → admitRoom s.blk r = true → y.env.split = false → r.resv = 0 → y.dead = false →
      (z.spec = true → (padGet s.blk z.draft).dead = false) → growth s.blk r.slot (r.prompt.length + r.gen) = 0 →
      stepTests s.blk z (admitCount s.blk r) (admitRows s.blk r (newTurn s.blk q r)) = true → Effect (.turnAdmission q pages) s (fun c =>
        (∃ t, slotGet c r.slot = { z with turns := z.turns ++ [t], st := 2 } ∧ t.acceptT = s.blk.time ∧ t.firstDl = first ∧ t.cdl = ends ∧
          t.interval = v.2.2.1 ∧ t.prompt = r.prompt ∧ t.gen = r.gen ∧ t.tag = r.tag ∧ t.pair = q ∧ t.noIrq = r.noIrq ∧ t.written = 0 ∧
          t.tampered = (y.tampered || (z.spec && (padGet s.blk z.draft).tampered)) ∧ (t.running = true ↔ z.turns = []) ∧ (y.st = .ready → z.spec = false → t.suspended = false)) ∧
        c.out = s.blk.out ++ [compOut s.blk q r.tag 1 3 r.slot ((first - s.blk.time) % 2 ^ 48 + 2 ^ 48 * ((ends - s.blk.time) % 2 ^ 48) +
          2 ^ 96 * (v.2.2.1 % 2 ^ 17))] ∧
        rpGet c q = compPair c q 1 { rpGet s.blk q with reading := none } ∧ OnlyPair s.blk c q ∧
        (∀ m, m ≠ r.slot → slotGet c m = slotGet s.blk m) ∧ c.pads = s.blk.pads ∧ c.hbm = s.blk.hbm ∧ c.die = s.blk.die)) ∧
    (z.st ≠ 3 → admitReady s.blk r = 0 → admitRoom s.blk r = true → y.env.split = false → r.resv = 0 → r.tag < 2 ^ 32 →
      stepTests s.blk z (admitCount s.blk r) (admitRows s.blk r (newTurn s.blk q r)) = false → Effect (.turnAdmission q pages) s (fun c =>
        c.out = s.blk.out ++ [compOut s.blk q r.tag 0x0102 3 r.slot 0] ∧ rpGet c q = compPair c q 2 { rpGet s.blk q with reading := none } ∧
        OnlyPair s.blk c q ∧ c.sess = s.blk.sess ∧ c.pads = s.blk.pads ∧ c.hbm = s.blk.hbm)) ∧
    (z.st ≠ 3 → emergency s.blk = true → r.resv ≠ 2 → r.tag < 2 ^ 32 → Effect (.turnAdmission q pages) s (fun c =>
        c.out = s.blk.out ++ [compOut s.blk q r.tag 0x0102 3 r.slot 0] ∧ rpGet c q = compPair c q 2 { rpGet s.blk q with reading := none } ∧
        OnlyPair s.blk c q ∧ c.sess = s.blk.sess ∧ c.pads = s.blk.pads ∧ c.hbm = s.blk.hbm)) ∧
    (z.st = 3 → spilledEntries s.blk r.slot ≠ [] → pages.head? = some none → Effect (.turnAdmission q pages) s (fun c =>
        slotGet c r.slot = { z with st := 4 } ∧ (∀ m, m ≠ r.slot → slotGet c m = slotGet s.blk m) ∧
        c.out = s.blk.out ++ [.completion q ((rpGet s.blk q).cqTail % cqSize s.blk q) (compBits r.tag 0x0402 3
          (1 + 128 * phase (rpGet s.blk q).cqTail (cqSize s.blk q)) (rpGet s.blk q).sqHead r.slot noSeq)] ∧
        rpGet c q = compPair c q 2 { rpGet s.blk q with reading := none } ∧ OnlyPair s.blk c q ∧ c.hbm = s.blk.hbm)) ∧
    (z.st = 0 → emergency s.blk = false → r.resv ≠ 2 → r.tag < 2 ^ 32 → Effect (.turnAdmission q pages) s (fun c =>
        c.out = s.blk.out ++ [compOut s.blk q r.tag 0x0104 3 r.slot 0] ∧ rpGet c q = compPair c q 2 { rpGet s.blk q with reading := none } ∧
        OnlyPair s.blk c q ∧ c.sess = s.blk.sess ∧ c.pads = s.blk.pads ∧ c.hbm = s.blk.hbm))) ∧
  (∀ (s : State) (w : Word), actServed s.blk = true →
    let cls := fun i : Nat => (regFld s.blk (0x2C000 + 16 * i) 0 20, regFld s.blk (0x2C004 + 16 * i) 0 16, regFld s.blk (0x2C008 + 16 * i) 0 17,
      bit (regGet s.blk (0x2C008 + 16 * i)) 31)
    let ok := fun i : Nat => 10 ≤ (cls i).1 ∧ (cls i).1 ≤ 1000000 ∧ 20 ≤ (cls i).2.2.1 ∧ (cls i).2.2.1 ≤ 100000
    Effect (.paceApply w) s (fun c =>
      (∀ i < 16, (bit w i = true → ok i → paceOf c i = cls i) ∧ (bit w i = false ∨ ¬ok i → paceOf c i = paceOf s.blk i)) ∧
      (regFld c 0x2C100 16 1 = 1 ↔ ∃ i < 16, bit w i = true ∧ ¬ok i) ∧ (∀ o, o ≠ 0x2C100 → regGet c o = regGet s.blk o) ∧
      { c with sess := { c.sess with pace := s.blk.sess.pace }, regs := s.blk.regs } = s.blk)) ∧
  (∀ (s : State) (w : Word), writeServed s.blk = true → Effect (.sessSelCapture w) s (fun c =>
    let n := fld w 0 14
    regFld c 0x2D000 0 14 = n ∧ c.sess.captured = slotBytes n (slotGet s.blk n) ∧ c.sess.captured.length = 256 ∧
    { c with sess := { c.sess with captured := s.blk.sess.captured }, regs := s.blk.regs } = s.blk)) ∧
  (∀ (s : State) (p : Fin 64), let x := padGet s.blk p
    x.st = .ready → x.step = none → x.flows = [] → stepReady s.blk p = true → (x.bar 0).span = false → (x.bar 0).opened < 4 →
    (∀ n t l, (slotGet s.blk n).turns = t :: l → t.prompt ≠ [] ∨ t.gen ≠ 0) → Effect (.stepStart p) s (fun c =>
      (padGet c p).step = some { nextStep s.blk p with going := true } ∧ c.sess = s.blk.sess)) ∧
  (∀ (s : State) (k : TeamId) (p : Nat) (e : PumpCmd) (l : List PumpCmd) (g : Step), (pumpGet s.blk (teamKey k)).q = e :: l →
    InPad s.blk (teamKey k) p → e.dir = 2 → e.sent < e.len → (padGet s.blk p).step = some g → g.ended = false →
    let a := spanLine (teamKey k) (e.line + e.sent)
    let m := e.addr + e.sent
    CleanLine s.blk a.1 a.2 → m < g.sets * setLines (padGet s.blk p) → tget none g.lines m = none → Effect (.samplerInputLine k) s (fun c =>
      (padGet c p).step = some { g with lines := tput none g.lines m (some (cline s.blk a.1 a.2)) } ∧
      (pumpGet c (teamKey k)).q = { e with sent := e.sent + 1 } :: l)) ∧
  (∀ (s : State) (p : Fin 64) (n tok : Nat) (g : Step) (t : Turn) (l : List Turn), let x := padGet s.blk p; let z := slotGet s.blk n
    x.step = some g → g.ended = true → x.st = .ready → s.blk.flt.fatal = false → struck s.blk p = false → setsHeld x g = true →
    g.parts = [⟨n, 0, true, 0, false, 1, 0⟩] → z.turns = t :: l → liveTurn z = some t → x.tamperStep = false → x.next = none →
    x.run ≤ max x.target x.gait → s.blk.pair.role = 0 → unsettled s.blk = false → rqRoom s.blk n 1 = true → t.tampered = false →
    t.suspended = false → s.blk.time ≤ t.bound → bit (ringReg s.blk z.ring 0x2000C) 31 = false →
    plainToken z (setLogits x g 0) = ⟨[(tok, false)], [], false⟩ → t.written + 1 < t.gen → Effect (.stepCommit p) s (fun c =>
      (padGet c p).step = none ∧ (padGet c p).stepNum = g.num ∧ (slotGet c n).lastToken = tok ∧ (slotGet c n).position = z.position + 1 ∧
      (slotGet c n).nextSeq = z.nextSeq + 1))

/-! ### Staged images and paddocks (R221 to R238, R438) -/

/-- A `STAGE` joins the staged image of its hash or claims the lowest free stage number and clean segments for it; the end of its copy
completes it, or frees them; `RELEASE` drops one reference, and the last one frees an image that no paddock uses.  So `MODEL_STAGE`
with `OP` 0 (R220), the end of its copy (R221) and `OP` 1 (R222) each complete, with the effect of their own. -/
def Obligations.Staging : Prop :=
  (∀ (s : State) (q : Fin 1024) (d : Line) (list : List (Option ChunkEntry)) (first : Option (List Byte)), AtHead s.blk q d 0x10 →
    fld d 64 8 = 0 → isReady s.blk 8 0 = true → allReady s.blk 2 8 = true → fld d 72 8 ≠ 0 →
    let rest := fun (c : Block) => { c with host := s.blk.host, out := s.blk.out, hbm := { c.hbm with stages := s.blk.hbm.stages, segs := s.blk.hbm.segs } } = s.blk
    let addr := (list.take (fld d 192 32)).head?.bind chunkAddr
    (addr = none → Effect (.modelStageStage q list first) s (fun c =>
      DescDone s.blk c q d 0x0203 0 0 [] ∧ rest c ∧ c.hbm = s.blk.hbm)) ∧
    (∀ a, addr = some a → let b := emit s.blk (.chunkRead a 4096)
      (first = none → Effect (.modelStageStage q list first) s (fun c => DescDone b c q d 0x0203 0 0 [] ∧ rest c ∧ c.hbm = s.blk.hbm)) ∧
      (∀ l : List Byte, first = some l →
        let h := padTo 4096 l
        let r := listRead h
        let req : StageReq := ⟨q, dCookie d, h, none, fld d 192 32, list⟩
        (∀ n g, sameImage s.blk (imgHash r) = some n → stageGet s.blk n = some g → g.copying = false →
          Effect (.modelStageStage q list first) s (fun c => DescDone b c q d 0 n (g.refs + 1) [] ∧ rest c ∧
            stageGet c n = some { g with refs := g.refs + 1 } ∧ (∀ m, m ≠ n → stageGet c m = stageGet s.blk m) ∧ c.hbm.segs = s.blk.hbm.segs)) ∧
        (∀ n g, sameImage s.blk (imgHash r) = some n → stageGet s.blk n = some g → g.copying = true →
          Effect (.modelStageStage q list first) s (fun c => DescOpen s.blk c q ∧ c.out = b.out ∧ rest c ∧
            stageGet c n = some { g with reqs := g.reqs ++ [req] } ∧
            (∀ m, m ≠ n → stageGet c m = stageGet s.blk m) ∧ c.hbm.segs = s.blk.hbm.segs)) ∧
        (sameImage s.blk (imgHash r) = none → headStatus r = 0 → sourceChunks req (imgLen r) = none →
          Effect (.modelStageStage q list first) s (fun c => DescDone b c q d 0x0203 0 0 [] ∧ rest c ∧ c.hbm = s.blk.hbm)) ∧
        (∀ n src, sameImage s.blk (imgHash r) = none → headStatus r = 0 → sourceChunks req (imgLen r) = some src →
          stageGet s.blk n = none → n < 1024 → (∀ m < n, stageGet s.blk m ≠ none) →
          let nI := cdiv (imgLen r - (envOf r).hbmWeight) segBytes
          let need := nI + cdiv (envOf r).hbmWeight segBytes
          let segs := (cleanSegs s.blk).take need
          need ≤ (cleanSegs s.blk).length → Effect (.modelStageStage q list first) s (fun c => DescOpen s.blk c q ∧
            c.out = b.out ++ src.zipIdx.map (fun e => .chunkRead e.1 (min segBytes (imgLen r - segBytes * e.2))) ∧
            rest c ∧ stageGet c n = some ⟨imgHash r, envOf r, imgLen r, (sectOf r 6).elim 0 (fun x => x.off), segs.take nI, segs.drop nI, 0,
              false, false, true, h, [req]⟩ ∧
            (∀ m, m ≠ n → stageGet c m = stageGet s.blk m) ∧ (∀ k, segGet c k = if k ∈ segs then .stage n else segGet s.blk k)))))) ∧
  (∀ (s : State) (n : Fin 1024) (chunks : List (Option (List Byte))) (g : Stage) (x : StageReq), stageGet s.blk n = some g →
    g.copying = true → g.reqs = [x] → x.win = none → CanComplete s.blk x.pair →
    let rest := fun (c : Block) => { c with host := s.blk.host, out := s.blk.out, hbm := s.blk.hbm } = s.blk ∧
      (∀ m, m ≠ n.val → stageGet c m = stageGet s.blk m)
    (∀ l, chunkBytes chunks g.len = some l → l.length = g.len → imageOk (listRead l) = true → hashOf l = g.hash → g.env.hbmWeight = 0 →
      padTo (0x100 + 32 * sectCount (listRead l)) l = padTo (0x100 + 32 * sectCount (listRead l)) g.head →
      g.segsI.Nodup → l.length ≤ segBytes * g.segsI.length → g.wOff ≤ l.length →
      Effect (.stageCopyDone n chunks) s (fun c => WorkDone s.blk c x.pair x.cookie 0 n 1 ∧ rest c ∧
        stageGet c n = some { g with copying := false, refs := 1, reqs := [] } ∧ c.hbm.segs = s.blk.hbm.segs ∧
        (∀ i, i < l.length → tget 0 c.hbm.mem (segBytes * g.segsI.getD (i / segBytes) 0 + i % segBytes) = l.getD i 0) ∧
        (∀ a, a / segBytes ∉ g.segsI → tget 0 c.hbm.mem a = tget 0 s.blk.hbm.mem a))) ∧
    (chunkBytes chunks g.len = none → s.blk.hbm.retired = [] → Effect (.stageCopyDone n chunks) s (fun c =>
      WorkDone s.blk c x.pair x.cookie 0x0203 0 0 ∧ rest c ∧ stageGet c n = none ∧ c.hbm.mem = s.blk.hbm.mem ∧
      (∀ k, segGet c k = if k ∈ g.segsI ++ g.segsW then .dirty else segGet s.blk k)))) ∧
  (∀ (s : State) (q : Fin 1024) (d : Line) (n : Fin 1024), AtHead s.blk q d 0x10 → fld d 64 8 = 1 → fld d 80 10 = n →
    isReady s.blk 8 0 = true → allReady s.blk 2 8 = true →
    let rest := fun (c : Block) => { c with host := s.blk.host, out := s.blk.out, hbm := { c.hbm with stages := s.blk.hbm.stages, segs := s.blk.hbm.segs } } = s.blk ∧
      (∀ m, m ≠ n.val → stageGet c m = stageGet s.blk m)
    (∀ g, stageGet s.blk n = some g → g.copying = false → g.releasing = false → 1 < g.refs →
      Effect (.modelStageRelease q) s (fun c => DescDone s.blk c q d 0 n (g.refs - 1) [] ∧ rest c ∧
        stageGet c n = some { g with refs := g.refs - 1 } ∧ c.hbm.segs = s.blk.hbm.segs)) ∧
    (∀ g, stageGet s.blk n = some g → g.copying = false → g.releasing = false → g.refs = 1 → stageUsed s.blk n = false →
      s.blk.hbm.retired = [] → Effect (.modelStageRelease q) s (fun c => DescDone s.blk c q d 0 n 0 [] ∧ rest c ∧ stageGet c n = none ∧
        (∀ k, segGet c k = if k ∈ g.segsI ++ g.segsW then .dirty else segGet s.blk k))) ∧
    (stageGet s.blk n = none → Effect (.modelStageRelease q) s (fun c => DescDone s.blk c q d 0x0203 n 0 [] ∧ rest c ∧ c.hbm = s.blk.hbm)))

/-- A load claims the lowest free number, its rectangle, its clean segments and its gait, and completes when its cisterns are filled and
its domains have ramped; a drain suspends nothing and closes what it served when its turns have closed; a restart is a contained
fault; a fenced paddock that is quiet is restored as its action says and goes back to what it was.  So each of
these commands completes, with the effect of its own: `PADDOCK_LOAD` (R223) and `PADDOCK_LOAD_DONE` (R228), `PADDOCK_UNLOAD` by drain and
`PADDOCK_UNLOAD_DONE` (R237), by restart (R233), `GAIT_SET` (R437), `PADDOCK_QUIET` (R232), `PADDOCK_RESTORE_DONE` (R234),
`PADDOCK_WARM_RESTORE` (R236), `SPLIT_JOIN_MESSAGE` and `SPLIT_JOIN_REPEAT` (R238). -/
def Obligations.PaddockLife : Prop :=
  (∀ (s : State) (q : Fin 1024) (d : Line), isReady s.blk 8 0 = true → s.blk.host.evtOn = false →
    let p := fld d 64 6
    let y := padGet s.blk p
    let quiet := fun (c : Block) => c.die = s.blk.die ∧ c.hbm.mem = s.blk.hbm.mem
    (∀ g col row k, AtHead s.blk q d 0x11 → allReady s.blk 2 8 = true → stageGet s.blk (fld d 64 10) = some g → g.copying = false →
      g.damaged = false → g.releasing = false → bit d 80 = false → col = fld d 88 8 → row = fld d 96 8 →
      (∀ i < g.env.width, col + i < 80 → isReady s.blk 4 (col + i) = true) →
      let gait := max g.env.gait (fld d 104 2)
      shortages s.blk g.env gait (freeTeams s.blk false) = [] →
      (rectFree (freeTeams s.blk false) col row g.env.width g.env.height = true → k < 64 → (padGet s.blk k).st = .free →
        (∀ r < k, (padGet s.blk r).st ≠ .free) → g.env.split = false → g.env.splitFlows = 0 → Effect (.paddockLoad q) s (fun c =>
          DescOpen s.blk c q ∧ c.out = s.blk.out ∧ quiet c ∧ OnlyPad s.blk c k ∧ c.sess = s.blk.sess ∧
          (let kv := (cleanSegs s.blk).take (cdiv g.env.kvReserve segBytes)
           padGet c k = { Pad.init with st := .loading, col := col, row := row, stage := fld d 64 10, env := g.env, hash := g.hash, gait := gait,
                                        run := gait, target := gait, kv := kv, waiters := [(q.val, dCookie d)] } ∧
           (∀ i, segGet c i = if i ∈ kv then .kv k else segGet s.blk i)))) ∧
      (rectFree (freeTeams s.blk false) col row g.env.width g.env.height = false → Effect (.paddockLoad q) s (fun c =>
          DescDone s.blk c q d 0x0202 0 (fragReport (freeTeams s.blk false) g.env.height) [] ∧ c.pads = s.blk.pads ∧ quiet c ∧
          c.hbm = s.blk.hbm))) ∧
    (AtHead s.blk q d 0x12 → fld d 72 8 = 0 → y.st = .ready → y.env.split = false → Effect (.paddockUnloadDrain q) s (fun c =>
      DescOpen s.blk c q ∧ c.out = s.blk.out ∧ quiet c ∧ OnlyPad s.blk c p ∧
      padGet c p = { y with st := .draining, waiters := y.waiters ++ [(q.val, dCookie d)] } ∧
      (∀ n, slotGet c n = if n ∈ boundSlots s.blk p then { slotGet s.blk n with unloading := true } else slotGet s.blk n))) ∧
    (AtHead s.blk q d 0x12 → fld d 72 8 = 0 → y.st = .free → Effect (.paddockUnloadDrain q) s (fun c =>
      DescDone s.blk c q d 0x0203 p 0 [] ∧ c.pads = s.blk.pads ∧ quiet c ∧ c.sess = s.blk.sess)) ∧
    (AtHead s.blk q d 0x12 → fld d 72 8 = 1 → y.st ≠ .free → y.tampered = false → Effect (.paddockUnloadRestart q) s (fun c =>
      DescDone s.blk c q d 0 p 0 [] ∧ c.pads = s.blk.pads ∧ quiet c ∧ c.sess = s.blk.sess ∧
      ∃ r, c.reports = s.blk.reports ++ [r] ∧ r.source = 0x110 ∧ r.cls = contained ∧ r.unit = .paddock p ∧ fld r.d0 19 6 = p ∧
        fld r.d0 25 1 = 1)) ∧
    (AtHead s.blk q d 0x13 → (y.st = .ready ∨ y.st = .fenced ∨ y.st = .restoring) → Effect (.gaitSet q) s (fun c =>
      DescDone s.blk c q d 0 p 0 [] ∧ quiet c ∧ c.sess = s.blk.sess ∧ OnlyPad s.blk c p ∧
      padGet c p = { y with target := max y.gait (min (gaitCap s.blk) (fld d 72 2)) })) ∧
    (AtHead s.blk q d 0x13 → y.st = .free → Effect (.gaitSet q) s (fun c => DescDone s.blk c q d 0x0104 p 0 [] ∧ c.pads = s.blk.pads ∧ quiet c))) ∧
  (∀ (s : State) (p : Fin 64), s.blk.host.evtOn = false →
    let y := padGet s.blk p
    (∀ r q k, y.st = .loading → rampsDone s.blk y y.run = true → readStage s.blk y.stage = (s.blk, some r) → y.env.split = false →
      y.waiters = [(q, k)] → CanComplete s.blk q → y.row + y.env.height ≤ 59 → (∀ i ∈ y.teams, (pumpGet s.blk i).q = []) →
      Effect (.paddockLoadDone p) s (fun c =>
        WorkDone s.blk c q k 0 p 0 ∧ OnlyPad s.blk c p ∧ (padGet c p).st = .ready ∧ (padGet c p).waiters = [] ∧
        c.sess = s.blk.sess ∧ c.hbm = s.blk.hbm ∧
        (∀ i ck, y.cores[i]? = some ck → coreGet c ck = { CoreS.init with cB := (coreRec r i).c, wB := (coreRec r i).w,
                                                                          sr := srStart y.env.seed i, srSaved := srStart y.env.seed i } ∧
          (∀ th < 4, ((coreRec r i).start / 2 ^ th % 2 = 1 → (thrGet c (4 * ck + th)).st = .ready ∧
              (thrGet c (4 * ck + th)).pc.toNat = (coreRec r i).pcs.getD th 0 % 2 ^ 32) ∧
            ((coreRec r i).start / 2 ^ th % 2 = 0 → (thrGet c (4 * ck + th)).st = .parked))) ∧
        (∀ ck, ck ∉ y.cores → coreGet c ck = coreGet s.blk ck))) ∧
    (∀ q k, y.st = .draining → boundSlots s.blk p = [] → y.step = none → y.waiters = [(q, k)] → CanComplete s.blk q → y.flows = [] →
      (y.env.split = true → y.env.sessionPart = true ∨ y.peerBusy = false) → (∀ i ∈ y.teams, (pumpGet s.blk i).q = []) →
      Effect (.paddockUnloadDone p) s (fun c => WorkDone s.blk c q k 0 p 0 ∧ OnlyPad s.blk c p ∧ padGet c p = Pad.init ∧
        (∀ ck ∈ y.cores, coreGet c ck = CoreS.init ∧ (∀ a < 40960, cbyte c ck a = 0)) ∧
        (∀ ck, ck ∉ y.cores → coreGet c ck = coreGet s.blk ck ∧ ∀ a < 40960, cbyte c ck a = cbyte s.blk ck a))) ∧
    (y.st = .fenced → y.quiet = false → y.act = 0 → Effect (.paddockQuiet p) s (fun c =>
      c = padPut s.blk p { y with quiet := true })) ∧
    (y.st = .fenced → y.quiet = false → y.act = 1 → y.dead = false → s.blk.flt.fatal = false → s.blk.die.repair = [] →
      Effect (.paddockQuiet p) s (fun c => c = padPut s.blk p { y with quiet := true, st := .restoring })) ∧
    (y.st = .restoring → rampsDone s.blk y y.run = true → y.act = 1 → s.blk.die.repair = [] → Effect (.paddockRestoreDone p) s (fun c =>
      OnlyPad s.blk c p ∧ (padGet c p).st = y.back ∧ (padGet c p).act = 0 ∧ (padGet c p).quiet = false ∧ (padGet c p).recs = [] ∧
      (∀ ck, coreGet c ck = if ck ∈ y.cores then { coreGet s.blk ck with ibuf := [], sr := (coreGet s.blk ck).srSaved } else coreGet s.blk ck) ∧
      c.die.cist = s.blk.die.cist ∧ c.sess = s.blk.sess ∧ c.out = s.blk.out ∧ c.reports = s.blk.reports)) ∧
    (∀ r g, s.blk.pwr.restore = p.val :: r → isReady s.blk 0 0 = true → allReady s.blk 2 8 = true → allReady s.blk 3 4 = true →
      (∀ i < y.env.width, isReady s.blk 4 (y.col + i) = true) → y.st = .fenced → y.dead = false → s.blk.flt.fatal = false →
      stageGet s.blk y.stage = some g → g.damaged = false → Effect (.paddockWarmRestore p) s (fun c =>
        c.pwr = { s.blk.pwr with restore := r } ∧ OnlyPad s.blk c p ∧ padGet c p = { y with quiet := true, act := 2, st := .restoring } ∧
        { c with pads := s.blk.pads, pwr := s.blk.pwr } = s.blk)) ∧
    (∀ j, y.st = .joining → joins s.blk p j.msg = true → Effect (.splitJoinMessage p j) s (fun c =>
      c = padPut s.blk p { y with joined := true, peerPad := j.msg.paddock.toNat, answered := true, peerDrain := false, peerBusy := true,
                                  hops := j.hops + 1, st := .ready })) ∧
    (∀ j, y.st = .joining → joins s.blk p j.msg = false → Effect (.splitJoinMessage p j) s (fun c =>
      OnlyPad s.blk c p ∧ padGet c p = { y with mismatch := true, answered := true, hops := j.hops + 1 } ∧
      (y.mismatch = false → ∃ r, c.reports.getLast? = some r ∧ r.source = 0x111 ∧ r.cls = contained ∧ fld r.d0 19 6 = p.val) ∧
      (y.answered = true → y.mismatch = true → c.reports = s.blk.reports ∧ c.fab = s.blk.fab) ∧
      (∀ f fl x, y.answered = false → y.flows = f :: fl → flowGet s.blk f = some x → x.asked.length < 256 →
        flowGet c f = some { x with
          next := (x.next + 1) % 2 ^ 32, asked := x.asked ++ [⟨x.next, .join p (joinMsg s.blk p), 0, false, s.blk.time, s.blk.time⟩] }))) ∧
    (y.st = .joining → y.answered = true → exec (.splitJoinRepeat p) s = .next s) ∧
    (∀ f fl x i, y.st = .joining → y.answered = false → y.flows = f :: fl → flowGet s.blk f = some x → x.asked.length < 256 →
      s.blk.fab.node = some i → Effect (.splitJoinRepeat p) s (fun c =>
      let m := TMsg.join p (joinMsg s.blk p)
      flowGet c f = some { x with next := (x.next + 1) % 2 ^ 32, asked := x.asked ++ [⟨x.next, m, 0, false, s.blk.time, s.blk.time⟩] } ∧
      (∀ g, g ≠ f → flowGet c g = flowGet s.blk g) ∧ c.pads = s.blk.pads ∧
      (∀ e, nextHop s.blk false 32 i x.peer f 0 = some e → PacketSent s.blk c e (.request m)) ∧
      (nextHop s.blk false 32 i x.peer f 0 = none → c.out = s.blk.out ∧ regGet c 0x300310 = regGet (noRoute s.blk) 0x300310))))

/-! ### Steps (R180, R265, R267) -/

/-- A step that is ready starts: its block is written, and the scheduler's arrival opens the next round of barrier 0; a line of the
sampler-bound command fills its place in the logit sets until the step has ended, and one beyond them or a second time is `SAMPLER_INPUT`; the commit of a
step with one generated token writes its record and advances its session, and a missing set is `SAMPLER_INPUT`.
So `STEP_START` (R180, R260), `SAMPLER_INPUT_LINE` (R267) and `STEP_COMMIT` (R265) each complete, with the effect of their own. -/
def Obligations.StepsAndSampler : Prop :=
  (∀ (s : State) (p : Fin 64), let x := padGet s.blk p
    x.st = .ready → x.step = none → x.flows = [] → stepReady s.blk p = true → (x.bar 0).span = false → (x.bar 0).opened < 4 →
    (∀ n t l, (slotGet s.blk n).turns = t :: l → t.prompt ≠ [] ∨ t.gen ≠ 0) → Effect (.stepStart p) s (fun c =>
      (padGet c p).step = some { nextStep s.blk p with going := true } ∧ ((padGet c p).bar 0).opened = ((x.bar 0).opened + 1) % 4 ∧
      ((padGet c p).bar 0).need = (x.bar 0).need ∧ (padGet c p).bar0 = (padGet c p).bar 0 ∧ (padGet c p).rounds0 = x.rounds ∧
      (padGet c p).st = .ready ∧ (padGet c p).stepNum = x.stepNum ∧ OnlyPad s.blk c p ∧ c.sess = s.blk.sess ∧ c.out = s.blk.out ∧
      c.die.cist = s.blk.die.cist ∧ c.host = s.blk.host)) ∧
  (∀ (s : State) (k : TeamId) (p : Nat) (e : PumpCmd) (l : List PumpCmd) (g : Step), (pumpGet s.blk (teamKey k)).q = e :: l →
    InPad s.blk (teamKey k) p → e.dir = 2 → e.sent < e.len → (padGet s.blk p).step = some g →
    let a := spanLine (teamKey k) (e.line + e.sent)
    let m := e.addr + e.sent
    let u : PumpS := { pumpGet s.blk (teamKey k) with q := { e with sent := e.sent + 1 } :: l }
    CleanLine s.blk a.1 a.2 →
    (m < g.sets * setLines (padGet s.blk p) → tget none g.lines m = none → g.ended = true → Effect (.samplerInputLine k) s (fun c =>
      c = pumpPut s.blk (teamKey k) u)) ∧
    (m < g.sets * setLines (padGet s.blk p) → tget none g.lines m = none → g.ended = false → Effect (.samplerInputLine k) s (fun c =>
      c = padPut (pumpPut s.blk (teamKey k) u) p { padGet s.blk p with step := some { g with lines := tput none g.lines m (some (cline s.blk a.1 a.2)) } })) ∧
    (g.sets * setLines (padGet s.blk p) ≤ m ∨ tget none g.lines m ≠ none → Effect (.samplerInputLine k) s (fun c =>
      c.pads = s.blk.pads ∧ pumpGet c (teamKey k) = u ∧ ∃ r, c.reports = s.blk.reports ++ [r] ∧ r.source = 0x120 ∧ r.cls = contained ∧
        r.unit = .paddock p))) ∧
  (∀ (s : State) (p : Fin 64) (n tok : Nat) (g : Step) (t : Turn) (l : List Turn), let x := padGet s.blk p; let z := slotGet s.blk n
    let q := z.ring
    x.step = some g → g.ended = true → x.st = .ready → s.blk.flt.fatal = false → struck s.blk p = false →
    (setsHeld x g = false → Effect (.stepCommit p) s (fun c => padGet c p = { x with step := some { g with ended := false } } ∧
      OnlyPad s.blk c p ∧ c.sess = s.blk.sess ∧ c.out = s.blk.out ∧
      ∃ r, c.reports = s.blk.reports ++ [r] ∧ r.source = 0x120 ∧ r.cls = contained ∧ r.unit = .paddock p)) ∧
    (setsHeld x g = true → g.parts = [⟨n, 0, true, 0, false, 1, 0⟩] → z.turns = t :: l → liveTurn z = some t → x.tamperStep = false →
      x.next = none → x.run ≤ max x.target x.gait → s.blk.pair.role = 0 → unsettled s.blk = false → rqRoom s.blk n 1 = true →
      t.tampered = false → t.suspended = false → s.blk.time ≤ t.bound → bit (ringReg s.blk q 0x2000C) 31 = false →
      plainToken z (setLogits x g 0) = ⟨[(tok, false)], [], false⟩ → t.written + 1 < t.gen → Effect (.stepCommit p) s (fun c =>
        slotGet c n = { z with position := z.position + 1, lastToken := tok, pending := true, nextSeq := z.nextSeq + 1,
                               log := z.log ++ [(z.nextSeq, tok, 0, t.tag)], issued := z.nextSeq + 1
                               turns := { t with tries := 0, written := t.written + 1, lastSeq := some z.nextSeq,
                                                 bound := s.blk.time + 1000 * t.interval } :: l } ∧
        (∀ m, m ≠ n → slotGet c m = slotGet s.blk m) ∧ rpGet c q = { rpGet s.blk q with rqTail := ((rpGet s.blk q).rqTail + 1) % 2 ^ 32 } ∧
        OnlyPair s.blk c q ∧ c.out = s.blk.out ++ [.record q ((rpGet s.blk q).rqTail % rqSize s.blk q)
          (recBits z.nextSeq n tok z.node (2 ^ 31 * phase (rpGet s.blk q).rqTail (rqSize s.blk q)) s.blk.time 0 t.tag)] ∧
        (padGet c p).step = none ∧ (padGet c p).stepNum = g.num ∧ (padGet c p).run = x.run ∧ OnlyPad s.blk c p ∧ c.reports = s.blk.reports)))

/-! ### Gaits, domains, sluices and scrubbing (R83, R204, R432 to R441) -/

/-- `GAIT_MODULE_W` is refused below the committed sum; the governor raises a paddock by one gait where the lowest headroom of the past
100 µs allows it; a ramp ends, a domain off its set point is reported; a clock switch that fails, a nap, a pump's sluice, a sluice
that stays open and a scrub have their effects on their own unit alone. -/
def Obligations.GaitsAndSluices : Prop :=
  (∀ (s : State) (w : Word), writeServed s.blk = true →
    (6400 * min (fld w 0 16) 27140 < committedSum s.blk → Effect (.gaitModuleWWrite w) s (fun c => regFld c 0x40004 16 1 = 1 ∧
      (∀ o, o ≠ 0x40004 → regGet c o = regGet s.blk o) ∧ { c with regs := s.blk.regs } = s.blk)) ∧
    (committedSum s.blk ≤ 6400 * min (fld w 0 16) 27140 → Effect (.gaitModuleWWrite w) s (fun c => regFld c 0x40004 16 1 = 0 ∧
      regFld c 0x40000 0 16 = fld w 0 16 ∧ (∀ o, o ≠ 0x40004 → o ≠ 0x40000 → regGet c o = regGet s.blk o) ∧
      { c with regs := s.blk.regs, pwr := { c.pwr with heads := s.blk.pwr.heads } } = s.blk))) ∧
  (∀ (s : State) (p : Fin 64), clocked s.blk = true → s.blk.flt.fatal = false → s.blk.pwr.causes = [] → s.blk.pwr.throttle = [] →
    (∀ q, (padGet s.blk q).run ≤ max (padGet s.blk q).target (padGet s.blk q).gait ∧ (padGet s.blk q).next = none) → 0 ≤ headroom s.blk →
    raisable s.blk = [p.val] → (padGet s.blk p).step ≠ none →
    let x := padGet s.blk p
    (extra s.blk x (x.run + 1) : Int) ≤ lowHead s.blk → Effect .governorPeriod s (fun c =>
      padGet c p = { x with next := some (x.run + 1), raised := s.blk.pwr.stamp + 1 } ∧ OnlyPad s.blk c p ∧
      { c with pads := s.blk.pads, pwr := s.blk.pwr } = s.blk ∧ c.pwr.causes = [] ∧ c.pwr.throttle = [])) ∧
  (∀ (s : State) (d : Fin 16) (mV : Nat), clocked s.blk = true →
    let x := domGet s.blk d
    ((∀ q, (padGet s.blk q).next = none) → x.ramping = true → Effect (.domainRampDone d mV) s (fun c =>
      c = domPut s.blk d { x with level := x.want, ramping := false, milliVolt := mV })) ∧
    (x.ramping = false → 20 * mV < 19 * setPoint x.level ∨ 21 * setPoint x.level < 20 * mV → Effect (.vdomFault d mV) s (fun c =>
      domGet c d = { x with milliVolt := mV, ramping := true } ∧ c.pads = s.blk.pads ∧ c.out = s.blk.out ∧
      ∃ r, c.reports = s.blk.reports ++ [r] ∧ r.source = 0x01C ∧ r.cls = contained ∧ r.unit = .strip d ∧ r.d2.toNat = d.val))) ∧
  (∀ (s : State) (p : Fin 64), clocked s.blk = true → (padGet s.blk p).st ≠ .free → Effect (.clkStoppedSource p) s (fun c =>
    regFld c 0x30000 16 16 = min 65535 (regFld s.blk 0x30000 16 16 + 1) ∧ (∀ o, o ≠ 0x30000 → regGet c o = regGet s.blk o) ∧
    { c with regs := s.blk.regs, reports := s.blk.reports } = s.blk ∧
    c.reports.map (fun r => (r.source, r.cls)) = s.blk.reports.map (fun r => (r.source, r.cls)) ++ [(0x012, corrected)])) ∧
  (∀ (s : State) (k : CoreId), bit (regGet s.blk 0x30400) 0 = true → (coreGet s.blk (coreKey k)).outstanding = 0 →
    padOf s.blk (teamKey k.team) ≠ none → (∀ i < 4, let x := thrGet s.blk (4 * coreKey k + i)
      (x.st = .waiting ∨ x.st = .parked) ∧ x.idleAt + x.napAfter ≤ s.blk.time) →
    Effect (.coreNap k) s (fun c => coreGet c (coreKey k) = { coreGet s.blk (coreKey k) with napping := true } ∧
      (∀ q, q ≠ coreKey k → coreGet c q = coreGet s.blk q) ∧
      { c with die := { c.die with cores := s.blk.die.cores }, pwr := { c.pwr with heads := s.blk.pwr.heads } } = s.blk) ∧
    ((coreGet s.blk (coreKey k)).napping = false → Effect (.sluiceTimeout (.core k)) s (fun c =>
      regFld c 0x30004 0 16 = min 65535 (regFld s.blk 0x30004 0 16 + 1) ∧ { c with regs := s.blk.regs, reports := s.blk.reports } = s.blk ∧
      c.reports.map (fun r => (r.source, r.cls)) = s.blk.reports.map (fun r => (r.source, r.cls)) ++ [(0x013, corrected)]))) ∧
  (∀ (s : State) (k : TeamId), let u := pumpGet s.blk (teamKey k)
    let cycles := fun p => tickTenths (padGet s.blk p).run * (s.blk.time - u.idleAt) / 50
    (u.q = [] → (∀ p, padOf s.blk (teamKey k) = some p → 64 ≤ cycles p) → Effect (.pumpSluiceClose k) s (fun c =>
      c = pumpPut s.blk (teamKey k) { u with sluiced := true })) ∧
    (u.q ≠ [] ∨ (∃ p, padOf s.blk (teamKey k) = some p ∧ cycles p < 64) → exec (.pumpSluiceClose k) s = .next s)) ∧
  (∀ (s : State) (k : CoreId), let ck := coreKey k; let x := coreGet s.blk ck
    padOf s.blk (teamKey k.team) ≠ none → x.scrub < 640 →
    (CleanLine s.blk ck x.scrub → Effect (.scrubRequest k) s (fun c => c = corePut s.blk ck { x with scrub := (x.scrub + 1) % 640 })) ∧
    (∀ j < 8, 0 < wordErr s.blk ck (8 * x.scrub + j) → wordErr s.blk ck (8 * x.scrub + j) ≤ 64 →
      (∀ i < 8, i ≠ j → wordErr s.blk ck (8 * x.scrub + i) = 0) → Effect (.scrubRequest k) s (fun c =>
        coreGet c ck = { x with scrub := (x.scrub + 1) % 640 } ∧ wordErr c ck (8 * x.scrub + j) = 0 ∧ c.die.cist = s.blk.die.cist ∧
        ∃ r, c.reports = s.blk.reports ++ [r] ∧ r.source = 0x0C0 + x.scrub / 160 ∧ r.cls = corrected ∧ fld r.d1 0 10 = x.scrub ∧
          fld r.d1 10 3 = j ∧ fld r.d1 13 6 = wordErr s.blk ck (8 * x.scrub + j) - 1)))

/-! ### Clocks and readiness (R425 to R430) -/

/-- The reference starts, ROOT locks to it, and loses its lock: a fatal fault where `PERST#` is deasserted, held over until that ends; a
unit whose prerequisites hold becomes ready and says so, Swizen with an address for the sideband device; and one that leaves ready says so. -/
def Obligations.ClocksAndReadiness : Prop :=
  ∀ (s : State), let w := s.blk.pwr
    Effect .refclkStart s (fun c => c = { s.blk with pwr := { w with refOk := true } }) ∧
    Effect .holdoverEnd s (fun c => c = { s.blk with pwr := { w with holdover := false } }) ∧
    (w.powered = true → w.refOk = true → w.locked = false → s.blk.flt.fatal = false → (w.held = false ∨ w.perst = true) →
      Effect .rootLock s (fun c => c = { s.blk with pwr := { w with locked := true } })) ∧
    (w.powered = true → w.refOk = true → w.locked = false → s.blk.flt.fatal = false → w.held = true → w.perst = false →
      Effect .rootLock s (fun c => c.pwr.locked = true ∧ c.pwr.held = false ∧ c.pwr.cold = false ∧ c.die = s.blk.die ∧ c.hbm = s.blk.hbm ∧
        c.pads = s.blk.pads ∧ { c.host with eq := s.blk.host.eq } = s.blk.host ∧ c.time = s.blk.time ∧ c.pwr.ready = w.ready)) ∧
    (w.locked = true → w.perst = true →
      Effect .refLost s (fun c => c = { s.blk with pwr := { w with refOk := false, locked := false } }) ∧
      (w.refOk = true → Effect .pllUnlock s (fun c => c = { s.blk with pwr := { w with locked := false } }))) ∧
    (w.locked = true → w.perst = false → w.powered = true → w.held = false → s.blk.reports = [] → s.blk.flt.inj = none →
      Effect .refLost s (fun c => c.flt.fatal = true ∧ c.pwr.locked = false ∧ c.pwr.holdover = true ∧ c.pwr.refOk = false ∧
        (s.blk.flt.fatal = false → c.flt.fatalRec.map (fun r => (r.source, r.cls)) = some (0x010, fatal))) ∧
      (w.refOk = true → Effect .pllUnlock s (fun c => c.flt.fatal = true ∧ c.pwr.locked = false ∧ c.pwr.holdover = true ∧
        c.pwr.refOk = true ∧ (s.blk.flt.fatal = false → c.flt.fatalRec.map (fun r => (r.source, r.cls)) = some (0x011, fatal))))) ∧
    (∀ (f : Fin 9) (u : Nat), (CanEvent s.blk ∨ s.blk.host.evtOn = false) →
      let said := fun (c : Block) (code : Nat) (ready : Tbl Bool) (t : Tbl Nat) =>
        let swizen := f.val = 0 ∧ code = 1
        c.out = s.blk.out ++ (if s.blk.host.evtOn then [eventOut s.blk code f u 0] else []) ++
          (if swizen then [.sidebandDaa 0x30] else []) ∧
        c.pwr = { w with ready := ready, readyT := t } ∧ c.opt = (if swizen then { s.blk.opt with addressed := true } else s.blk.opt) ∧
        { c with pwr := w, out := s.blk.out, opt := s.blk.opt, host := { c.host with evtTail := s.blk.host.evtTail } } = s.blk
      (canReady s.blk f u = true → isReady s.blk f u = false → (f = 0 → s.blk.host.early = [] ∧ s.blk.host.earlyEvt = false) →
        (f = 1 → bit (regGet s.blk 0x300000) 0 = false) → Effect (.unitReady f u) s (fun c =>
        said c 1 (tput false w.ready (128 * f.val + u) true) (tput 0 w.readyT (128 * f.val + u) s.blk.time))) ∧
      (canReady s.blk f u = false → exec (.unitReady f u) s = .next s) ∧
      (u < 128 → isReady s.blk f u = true → Effect (.unitNotReady f u) s (fun c => said c 2 (tput false w.ready (128 * f.val + u) false) w.readyT)) ∧
      (isReady s.blk f u = false → exec (.unitNotReady f u) s = .next s))

/-! ### Temperature, supply and resets (R421 to R424, R443 to R451, R522, R523) -/

/-- Two samples at 100 °C throttle a region, at 110 °C are an emergency that takes it to walk, at 115 °C are fatal; a broken sensor can
be masked, one of a group; an engine that has cooled is reset; the supply's samples are kept, and 20 µs below 39.0 V are an
emergency for every paddock. -/
def Obligations.TemperatureAndSupply : Prop :=
  (∀ (s : State) (m : Fin 560) (code : Int) (moved : Bool), clocked s.blk = true → s.blk.pwr.throttle = [] → s.blk.pwr.causes = [] →
    s.blk.flt.fatal = false → s.blk.mgmt.low = false → s.blk.host.evtOn = false →
    let x := sensorGet s.blk m
    x.broken = false → -320 ≤ code → code ≤ 1200 → x.still < 4000 →
    let mild := fun (c : Block) => (sensorGet c m).temp = code ∧ (sensorGet c m).broken = false ∧ (sensorGet c m).masked = x.masked ∧
      0 < (sensorGet c m).still ∧ (∀ k, k ≠ m.val → sensorGet c k = sensorGet s.blk k)
    let sources := fun (c : Block) => c.reports.map (fun r => (r.source, r.cls))
    (code < 760 → Effect (.temperatureSample m code true moved) s (fun c => mild c ∧
      { c with pwr := { c.pwr with sensors := s.blk.pwr.sensors } } = s.blk)) ∧
    (m.val < 512 → x.valid = true → 800 ≤ x.temp → 800 ≤ code → code < 880 → Effect (.temperatureSample m code true moved) s (fun c =>
      mild c ∧ c.pwr.throttle = [m.val] ∧ c.pwr.causes = [] ∧ sources c = sources s.blk ++ [(0x020, corrected)] ∧
      (∀ p < 64, (padGet s.blk p).st ≠ .free → inRegion (padGet s.blk p) m = true →
        (padGet c p).run = min (padGet s.blk p).run (padGet s.blk p).gait) ∧
      (∀ p, inRegion (padGet s.blk p) m = false → padGet c p = padGet s.blk p))) ∧
    (m.val < 512 → x.valid = true → 880 ≤ x.temp → 880 ≤ code → code < 920 → Effect (.temperatureSample m code true moved) s (fun c =>
      mild c ∧ (∃ l, c.pwr.causes = [⟨1, m, l, true⟩]) ∧ sources c = sources s.blk ++ [(0x020, corrected), (0x021, corrected)] ∧
      c.mgmt.low = true ∧ (∀ p < 64, (padGet s.blk p).st ≠ .free → inRegion (padGet s.blk p) m = true → (padGet c p).run = 0))) ∧
    (m.val < 512 → x.valid = true → 920 ≤ x.temp → 920 ≤ code → Effect (.temperatureSample m code true moved) s (fun c =>
      mild c ∧ sources c = sources s.blk ++ [(0x020, corrected), (0x021, corrected), (0x022, fatal)])) ∧
    (x.masked = false → m.val < 512 → Effect (.temperatureSample m code false moved) s (fun c => (sensorGet c m).broken = true ∧
      (∃ l a, c.pwr.causes = [⟨2, m, l, a⟩]) ∧ sources c = sources s.blk ++ [(0x023, corrected)]))) ∧
  (∀ (s : State) (n : Fin 8), clocked s.blk = true → s.blk.flt.fatal = false → n.val ∈ s.blk.pwr.hot → n.val ∉ s.blk.flt.held →
    (∀ m ∈ engSensors n, (sensorGet s.blk m).valid = true → (sensorGet s.blk m).below85 ≠ 0 ∧
      (sensorGet s.blk m).below85 + 100000000 ≤ s.blk.time + 1) → engBroken s.blk n ≤ 2 → Effect (.oeOvertempRestart n) s (fun c =>
      c.pwr.hot = s.blk.pwr.hot.filter (fun k => k ≠ n.val) ∧ engGet c n = { engGet s.blk n with fenced := true, resetting := true } ∧
      c.pads = s.blk.pads ∧ c.die = s.blk.die)) ∧
  (∀ (s : State) (w : Word), actServed s.blk = true → fld w 24 8 = 0x54 → let m := fld w 0 10
    (512 ≤ m ∨ (sensorGet s.blk m).broken = false ∨ (∃ k ∈ maskGroup m, (sensorGet s.blk k).masked = true) → Effect (.thermMaskCmd w) s (fun c =>
      regFld c 0x50010 1 1 = 1 ∧ (∀ o, o ≠ 0x50010 → regGet c o = regGet s.blk o) ∧ { c with regs := s.blk.regs } = s.blk)) ∧
    (m < 512 → (sensorGet s.blk m).broken = true → (∀ k ∈ maskGroup m, (sensorGet s.blk k).masked = false) → Effect (.thermMaskCmd w) s (fun c =>
      regFld c 0x50010 1 1 = 0 ∧ sensorGet c m = { sensorGet s.blk m with masked := true } ∧ (∀ k, k ≠ m → sensorGet c k = sensorGet s.blk k) ∧
      (∀ a ∈ c.pwr.causes, a.code = 2 → a.sensor ≠ m)))) ∧
  (∀ (s : State) (mV a w : Nat), clocked s.blk = true → s.blk.pwr.causes = [] → s.blk.flt.fatal = false → s.blk.mgmt.low = false →
    s.blk.host.evtOn = false →
    let samples := (w :: s.blk.pwr.samples).take 100
    let above := min (regFld s.blk 0x40308 0 16) 33000 * samples.length < samples.sum
    (40000 ≤ mV → mV ≤ 60000 → ¬above → Effect (.inputPowerSample mV a w) s (fun c => c.pwr.vin = mV ∧ c.pwr.iin = a ∧
      c.pwr.samples = samples ∧ c.pwr.causes = [] ∧ c.reports = s.blk.reports ∧ c.pads = s.blk.pads ∧ c.out = s.blk.out)) ∧
    (36000 ≤ mV → mV < 39000 → ¬above → (∀ k, k ≠ 0 → tget 0 s.blk.pwr.overSince k = 0) → tget 0 s.blk.pwr.overSince 0 ≠ 0 →
      tget 0 s.blk.pwr.overSince 0 + 20000 ≤ s.blk.time + 1 → Effect (.inputPowerSample mV a w) s (fun c =>
        c.pwr.vin = mV ∧ (∃ l, c.pwr.causes = [⟨3, 0, l, true⟩]) ∧ c.mgmt.low = true ∧
        c.reports.map (fun r => (r.source, r.cls)) = s.blk.reports.map (fun r => (r.source, r.cls)) ++ [(0x018, corrected)] ∧
        (∀ p < 64, (padGet s.blk p).st ≠ .free → (padGet c p).run = 0))))

/-- Power on, power removed and `RESET_CTRL.COLD` are cold resets: everything but fuses, flash, store and the module's pins is as after
reset; a warm reset, by `PERST#` or by `RESET_CTRL.WARM`, keeps HBM, staged images and loaded paddocks, fences those, and leaves no
unit ready; the module starts again when `PERST#` is deasserted and ROOT is locked.  A fenced paddock becomes quiet, the first one
recorded by a warm reset begins to be restored, and one restored to its last step goes back to what it was (R232, R234, R236). -/
def Obligations.Resets : Prop :=
  ∀ (s : State) (w : Word),
    let cold := fun (c : Block) => c.die = Block.reset.die ∧ c.pads = [] ∧ c.regs = Block.reset.regs ∧ c.hbm = HbmS.init ∧
      c.host = HostS.init ∧ c.sess = Block.reset.sess ∧ c.lnk = [] ∧ c.fab = FabS.init ∧ c.opt = OptS.init ∧ c.flt = FltS.init ∧
      c.time = 0 ∧ c.reports = [] ∧ c.pwr.ready = [] ∧ c.pwr.held = true ∧ c.pwr.cold = true ∧ c.pwr.locked = false ∧
      c.pair.role = 0 ∧ c.pair.request = false ∧ c.retired = s.blk.retired ∧ c.sec.root = s.blk.sec.root ∧
      c.sec.lifecycle = s.blk.sec.lifecycle ∧ c.sec.policy = s.blk.sec.policy ∧ c.sec.flash = s.blk.sec.flash ∧
      c.sec.store = s.blk.sec.store ∧ c.pwr.perst = s.blk.pwr.perst ∧ c.pwr.refOk = s.blk.pwr.refOk ∧ (∃ l, c.out = s.blk.out ++ l)
    let warm := fun (c : Block) => c.die = Block.reset.die ∧ c.lnk = [] ∧ c.hbm.mem = s.blk.hbm.mem ∧ c.hbm.stages = s.blk.hbm.stages ∧
      c.time = s.blk.time ∧ c.pwr.ready = [] ∧ c.pwr.restore = loadedPads s.blk ∧ c.flt.log.length = s.blk.flt.log.length ∧
      c.sec.flash = s.blk.sec.flash ∧ c.sec.store = s.blk.sec.store ∧ c.fab.node = s.blk.fab.node ∧
      (∀ p < 64, (padGet s.blk p).st ≠ .free → (padGet c p).st = .fenced ∧ (padGet c p).step = none ∧
        (padGet c p).run = (if forcedWalk s.blk (padGet s.blk p) then 0 else (padGet s.blk p).gait) ∧
        (padGet c p).gait = (padGet s.blk p).gait ∧ (padGet c p).env = (padGet s.blk p).env ∧
        (padGet c p).kv = (padGet s.blk p).kv ∧ (padGet c p).stage = (padGet s.blk p).stage)
    (s.blk.pwr.powered = false → Effect .powerOn s (fun c => cold c ∧ c.pwr.powered = true)) ∧
    (s.blk.pwr.powered = true → exec .powerOn s = .next s) ∧
    Effect .powerRemoved s (fun c => cold c ∧ c.pwr.powered = false) ∧
    (writeServed s.blk = true → fld w 24 8 = 0x52 → bit w 1 = true → Effect (.resetCtrlCold w) s (fun c =>
      cold c ∧ c.pwr.powered = s.blk.pwr.powered)) ∧
    (writeServed s.blk = true → fld w 24 8 = 0x52 → bit w 1 = false → bit w 0 = true → s.blk.pwr.held = false →
      s.blk.flt.windows = [] → s.blk.flt.waits = [] → Effect (.resetCtrlWarm w) s (fun c => warm c)) ∧
    (writeServed s.blk = true → fld w 24 8 ≠ 0x52 → exec (.resetCtrlCold w) s = .next s ∧ exec (.resetCtrlWarm w) s = .next s) ∧
    (s.blk.flt.fatal = false → s.blk.pwr.held = false → s.blk.flt.windows = [] → s.blk.flt.waits = [] → Effect .perstAssert s (fun c =>
      warm c ∧ c.pwr.perst = true ∧ c.pwr.held = true)) ∧
    (s.blk.pwr.locked = false → Effect .perstDeassert s (fun c => c = { s.blk with pwr := { s.blk.pwr with perst := false } })) ∧
    (s.blk.pwr.locked = true → s.blk.pwr.powered = true → s.blk.pwr.held = true → s.blk.pwr.cold = false → s.blk.flt.fatal = false →
      Effect .perstDeassert s (fun c => c.pwr.perst = false ∧ c.pwr.held = false ∧ c.hbm = s.blk.hbm ∧ c.pads = s.blk.pads ∧
        c.die = s.blk.die ∧ c.pwr.ready = s.blk.pwr.ready)) ∧
    (∀ (p : Fin 64) (r : List Nat), let y := padGet s.blk p
      (y.st = .fenced → y.quiet = false → y.act = 0 → Effect (.paddockQuiet p) s (fun c => c = padPut s.blk p { y with quiet := true })) ∧
      (s.blk.pwr.restore = p.val :: r → isReady s.blk 0 0 = true → allReady s.blk 2 8 = true → allReady s.blk 3 4 = true →
        (∀ i < y.env.width, isReady s.blk 4 (y.col + i) = true) → y.st = .fenced → y.dead = false → s.blk.flt.fatal = false →
        (∃ g, stageGet s.blk y.stage = some g ∧ g.damaged = false) → Effect (.paddockWarmRestore p) s (fun c => c.pwr.restore = r ∧
          padGet c p = { y with quiet := true, act := 2, st := .restoring })) ∧
      (y.st = .restoring → rampsDone s.blk y y.run = true → y.act = 1 → s.blk.die.repair = [] → Effect (.paddockRestoreDone p) s (fun c =>
        (padGet c p).st = y.back ∧ (padGet c p).act = 0 ∧ (padGet c p).quiet = false)))

/-! ### Self-test, HBM, the CXL.mem window and the spill pool (R90, R98 to R112, R475 to R477, R497) -/

/-- A self-test of teams claims a free rectangle and starts within the headroom, one of HBM claims free pool segments; its end marks or
clears the teams, or zeroes the segments, and completes with their number. -/
def Obligations.SelfTests : Prop :=
  (∀ (s : State) (q : Fin 1024) (d : Line), AtHead s.blk q d 0x21 →
    let col := fld d 72 8
    let row := fld d 80 8
    let w := fld d 88 8
    let h := fld d 96 8
    let rest := fun (c : Block) => c.out = s.blk.out ∧ c.pads = s.blk.pads ∧ c.die = s.blk.die ∧ c.hbm.mem = s.blk.hbm.mem ∧ c.sess = s.blk.sess
    (fld d 64 8 = 0 → col + w ≤ 80 → row + h ≤ 59 → (∀ i < w, isReady s.blk 4 (col + i) = true) →
      ((∀ k ∈ rectTeams col row w h, teamIdle s.blk k = true) → Effect (.selftestTeams q) s (fun c => DescOpen s.blk c q ∧ rest c ∧
        c.pwr = { s.blk.pwr with tests := s.blk.pwr.tests ++ [(s.blk.pwr.nextTest, ⟨q, dCookie d, false, col, row, w, h, [], false, s.blk.time⟩)]
                                 nextTest := s.blk.pwr.nextTest + 1 })) ∧
      ((∃ k ∈ rectTeams col row w h, teamIdle s.blk k = false) → Effect (.selftestTeams q) s (fun c =>
        DescDone s.blk c q d 0x0302 0 0 [] ∧ c.pwr = s.blk.pwr))) ∧
    (fld d 64 8 = 1 → allReady s.blk 2 8 = true → Effect (.selftestHbm q) s (fun c => DescOpen s.blk c q ∧ rest c ∧
      ∃ l : List Nat, l.length ≤ fld d 128 32 ∧ c.hbm.testing = s.blk.hbm.testing ++ l ∧
        (∀ k ∈ l, isPool s.blk k = true ∧ (segGet s.blk k = .clean ∨ segGet s.blk k = .dirty) ∧ k ∉ s.blk.hbm.testing) ∧
        c.pwr.tests = s.blk.pwr.tests ++ [(s.blk.pwr.nextTest, ⟨q, dCookie d, true, 0, 0, 0, 0, l, true, s.blk.time⟩)] ∧
        c.pwr.nextTest = s.blk.pwr.nextTest + 1))) ∧
  (∀ (s : State) (id : Nat) (x : SelfT), testGet s.blk id = some x →
    (clocked s.blk = true → s.blk.flt.fatal = false → x.hbm = false → x.started = false →
      ((64 * 180 * (x.width * x.height) : Nat) : Int) ≤ headroom s.blk → Effect (.selftestStart id) s (fun c =>
        c = { s.blk with pwr := { s.blk.pwr with tests := s.blk.pwr.tests.map (fun e =>
          if e.1 = id then (e.1, { e.2 with started := true }) else e) } })) ∧
    (CanComplete s.blk x.pair → x.started = true →
      let spent := (s.blk.time - x.from_ : Int) / 1000
      let gone := fun (c : Block) => c.pwr.tests = s.blk.pwr.tests.filter (fun e => e.1 ≠ id) ∧ c.pads = s.blk.pads
      (x.hbm = false → x.segs = [] → x.from_ ≤ s.blk.time → Effect (.selftestDone id []) s (fun c => gone c ∧
        (∃ us : Nat, spent ≤ us ∧ us ≤ spent + 1 ∧ WorkDone s.blk c x.pair x.cookie 0 0 (2 ^ 64 * (us % 2 ^ 32))) ∧
        (∀ k ∈ rectTeams x.col x.row x.width x.height, 60 * keyCol k + physRow s.blk (keyCol k) (keyRow k) ∉ c.flt.failed) ∧
        c.reports = s.blk.reports)) ∧
      (∀ k ∈ rectTeams x.col x.row x.width x.height, x.hbm = false → x.segs = [] → x.from_ ≤ s.blk.time →
        (rectTeams x.col x.row x.width x.height).filter (fun j => j = k) = [k] → Effect (.selftestDone id [k]) s (fun c => gone c ∧
          (∃ us : Nat, spent ≤ us ∧ us ≤ spent + 1 ∧ WorkDone s.blk c x.pair x.cookie 0 0
            (1 + 2 ^ 8 + 2 ^ 21 * keyCol k + 2 ^ 28 * keyRow k + 2 ^ 64 * (us % 2 ^ 32))) ∧
          60 * keyCol k + physRow s.blk (keyCol k) (keyRow k) ∈ c.flt.failed)) ∧
      (x.hbm = true → x.from_ ≤ s.blk.time → Effect (.selftestDone id []) s (fun c => gone c ∧
        (∃ us : Nat, spent ≤ us ∧ us ≤ spent + 1 ∧
          WorkDone s.blk c x.pair x.cookie 0 0 (2 ^ 64 * (us % 2 ^ 32) + 2 ^ 96 * (x.segs.length % 2 ^ 32))) ∧
        (∀ k ∈ x.segs, segGet c k = .clean ∧ k ∉ c.hbm.testing) ∧ (∀ k, k ∉ x.segs → segGet c k = segGet s.blk k) ∧
        (∀ a, tget 0 c.hbm.mem a = if a / segBytes ∈ x.segs then 0 else tget 0 s.blk.hbm.mem a)))))

/-- Reads and writes of the CXL.mem window, retirement, zeroing and patrol of HBM; an idle session's page goes to the spill pool and comes
back; IDE_KM messages count key sets. -/
def Obligations.WindowAndPool : Prop :=
  (∀ (s : State) (off : Nat), inWindow s.blk off 64 = true → winRetired s.blk (off / segBytes) = false →
    (s.blk.flt.fatal = false → (∀ u, off / 32 ≤ u → u ≤ (off + 63) / 32 → tget 0 s.blk.hbm.err u = 0) → Effect (.cxlMemRead off) s (fun c =>
      c = { s.blk with out := s.blk.out ++ [.memRead off ((List.range 64).map (fun i => tget 0 s.blk.hbm.mem (off + i))) false] })) ∧
    (s.blk.flt.fatal = true ∨ (∃ u, off / 32 ≤ u ∧ u ≤ (off + 63) / 32 ∧ tget 0 s.blk.hbm.err u = 2) → Effect (.cxlMemRead off) s (fun c =>
      c.hbm.mem = s.blk.hbm.mem ∧ ∃ l, c.out = s.blk.out ++ [.memRead off l true]))) ∧
  (∀ (s : State) (off : Nat) (data : List Byte) (poison : Bool), 
    (inWindow s.blk off data.length = false → exec (.cxlMemWrite off data poison) s = .fault .outsideWindow) ∧
    (inWindow s.blk off 64 = false → exec (.cxlMemRead off) s = .fault .outsideWindow) ∧
    (inWindow s.blk off data.length = true → winRetired s.blk (off / segBytes) = false → data ≠ [] →
      let wrote := fun (c : Block) => (∀ a, tget 0 c.hbm.mem a = if off ≤ a ∧ a < off + data.length then data.getD (a - off) 0
          else tget 0 s.blk.hbm.mem a) ∧
        { c with hbm := { c.hbm with mem := s.blk.hbm.mem, err := s.blk.hbm.err }, reports := s.blk.reports } = s.blk
      (poison = false → Effect (.cxlMemWrite off data poison) s (fun c => wrote c ∧ c.reports = s.blk.reports ∧
        (∀ u, tget 0 c.hbm.err u = if off ≤ 32 * u ∧ 32 * u + 32 ≤ off + data.length then 0 else tget 0 s.blk.hbm.err u))) ∧
      (poison = true → Effect (.cxlMemWrite off data poison) s (fun c => wrote c ∧
        (∀ u, off / 32 ≤ u → u ≤ (off + data.length - 1) / 32 → tget 0 c.hbm.err u = 2) ∧
        c.reports.map (fun r => (r.source, r.cls)) = s.blk.reports.map (fun r => (r.source, r.cls)) ++ [(0x43 + 16 * stackOf off, corrected)])))) ∧
  (∀ (s : State) (io active : Bool), isReady s.blk 1 0 = true → s.blk.flt.fatal = false → Effect (.ideKmMessage io active) s (fun c =>
    c.sec = { s.blk.sec with ideGen := s.blk.sec.ideGen + (if active then 1 else 0) } ∧
    c.host.ideIo = (if io then active else s.blk.host.ideIo) ∧ c.host.ideCm = (if io then s.blk.host.ideCm else active) ∧
    { c with sec := s.blk.sec, host := { c.host with ideIo := s.blk.host.ideIo, ideCm := s.blk.host.ideCm } } = s.blk)) ∧
  (∀ (s : State) (w : Word), actServed s.blk = true → let k := fld w 0 18
    (188416 ≤ k → Effect (.memRetireAdd w) s (fun c => regFld c 0x80054 18 1 = 1 ∧ { c with regs := s.blk.regs } = s.blk)) ∧
    (k < 188416 → (∀ r ∈ s.blk.hbm.retired, r.seg ≠ k) → (segGet s.blk k = .clean ∨ segGet s.blk k = .dirty) → Effect (.memRetireAdd w) s (fun c =>
      segGet c k = .retired ∧ (∀ j, j ≠ k → segGet c j = segGet s.blk j) ∧ c.hbm.retired = s.blk.hbm.retired ++ [⟨k, false, 2⟩] ∧
      regFld c 0x80054 18 1 = 0 ∧ regFld c 0x80054 0 18 = (s.blk.hbm.retired.length + 1) % 2 ^ 18)) ∧
    (∀ n, k < 188416 → (∀ r ∈ s.blk.hbm.retired, r.seg ≠ k) → segGet s.blk k = .stage n → Effect (.memRetireAdd w) s (fun c =>
      (∀ j, segGet c j = segGet s.blk j) ∧ c.hbm.retired = s.blk.hbm.retired ++ [⟨k, true, 2⟩]))) ∧
  (∀ (s : State) (seg : Nat), allReady s.blk 2 8 = true → s.blk.flt.fatal = false →
    (isPool s.blk seg = true → segGet s.blk seg = .dirty → seg ∉ s.blk.hbm.testing → Effect (.hbmPoolZeroing seg) s (fun c =>
      segGet c seg = .clean ∧ (∀ j, j ≠ seg → segGet c j = segGet s.blk j) ∧
      (∀ a, tget 0 c.hbm.mem a = if a / segBytes = seg then 0 else tget 0 s.blk.hbm.mem a) ∧ { c with hbm := s.blk.hbm } = s.blk)) ∧
    (patrolled s.blk seg = true → (s.blk.hbm.err.map (·.1)).filter (fun u => decide (u * 32 / segBytes = seg)) = [] →
      exec (.hbmPatrolScrub seg) s = .next s) ∧
    (∀ u, patrolled s.blk seg = true → (s.blk.hbm.err.map (·.1)).filter (fun u => decide (u * 32 / segBytes = seg)) = [u] →
      tget 0 s.blk.hbm.err u = 1 → tget 0 s.blk.hbm.ceSeen u = 0 → Effect (.hbmPatrolScrub seg) s (fun c => tget 0 c.hbm.err u = 0 ∧
        (∀ j, j ≠ u → tget 0 c.hbm.err j = tget 0 s.blk.hbm.err j) ∧ c.hbm.mem = s.blk.hbm.mem ∧ tget 0 c.hbm.ceSeen u = s.blk.time + 1 ∧
        c.reports.map (fun r => (r.source, r.cls)) = s.blk.reports.map (fun r => (r.source, r.cls)) ++ [(0x42 + 16 * stackOf (32 * u), corrected)]))) ∧
  (∀ (s : State) (w : Word) (list : List Dword), writeServed s.blk = true → bit w 1 = false →
    (bit w 0 = true → bit (regGet s.blk 0x8020C) 0 = false → s.blk.hbm.spillUsed = [] → (∀ d ∈ list, bit d 0 = true ∧ fld d 1 14 = 0) →
      Effect (.spillEnable w list) s (fun c => regFld c 0x8020C 0 1 = 1 ∧ regFld c 0x8020C 16 16 = fld w 16 16 ∧
        c.hbm.spillFree = ((list.take (min 1048576 (regFld s.blk 0x80208 0 21))).zipIdx).map (fun e => (e.2, e.1.toNat / 2 ^ 15 * 2 ^ 15)) ∧
        { c with regs := s.blk.regs, hbm := { c.hbm with spillFree := s.blk.hbm.spillFree } } = s.blk)) ∧
    (bit w 0 = true → bit (regGet s.blk 0x8020C) 0 = false → (∃ d ∈ list.take (min 1048576 (regFld s.blk 0x80208 0 21)), spillEntry d = false) →
      Effect (.spillEnable w list) s (fun c => regFld c 0x80210 21 1 = 1 ∧
        (∀ t ∈ c.hbm.spillFree, ∃ d, list[t.1]? = some d ∧ bit d 0 = true ∧ fld d 1 14 = 0))) ∧
    (bit w 0 = false → Effect (.spillEnable w list) s (fun c => regFld c 0x8020C 0 1 = 0 ∧ { c with regs := s.blk.regs } = s.blk))) ∧
  (∀ (s : State) (n : Fin 16384) (i k a : Nat) (e : Word) (t : Nat × Nat) (rest : List (Nat × Nat)), let z := slotGet s.blk n
    let y := padGet s.blk z.paddock
    twf 0 s.blk.hbm.pt = true → i < 65536 →
    (maySpill s.blk n = true → n.val ∉ s.blk.hbm.spilling → hostStopped s.blk = false → residentEntries s.blk n = [(i, e)] → s.blk.hbm.spillFree = t :: rest →
      fld e 0 22 = k → pageAddr y k = some a → (∀ u, a / 32 ≤ u → u ≤ (a + 32767) / 32 → tget 0 s.blk.hbm.err u = 0) →
      Effect (.sessionSpill n) s (fun c => slotGet c n = { z with st := 3 } ∧ (∀ m, m ≠ n.val → slotGet c m = slotGet s.blk m) ∧
        c.out = s.blk.out ++ [.spill t.2 (hbytes s.blk a 32768)] ∧ c.hbm.spilling = s.blk.hbm.spilling ∧ c.hbm.spillFree = rest ∧ c.hbm.spillUsed = s.blk.hbm.spillUsed ++ [t] ∧
        tget 0 c.hbm.pt (65536 * n + i) = ptWord t.1 true ∧ tget 0 (padGet c z.paddock).pages k = 0 ∧
        (∀ j, tget 0 c.hbm.mem j = if a ≤ j ∧ j < a + 32768 then 0 else tget 0 s.blk.hbm.mem j))) ∧
    (∀ (w : Word) (l : List Byte) (pages : List Nat), actServed s.blk = true → bit w 0 = true → bit w 1 = true →
      bit (regGet s.blk 0x8020C) 0 = true → spilledSlots s.blk = [n.val] → z.st = 3 → spilledEntries s.blk n = [(i, e)] → fld e 0 22 = t.1 →
      s.blk.hbm.spillUsed = [t] → freePages y = k :: pages → 0 < pagesOpen s.blk z.paddock n → pageAddr y k = some a → l.length = 32768 → k < 2 ^ 22 →
      Effect (.recall w [some l]) s (fun c => slotGet c n = { z with st := 1 } ∧ c.hbm.recalling = false ∧ c.out = s.blk.out ++ [.readBack t.2] ∧
        c.hbm.spillUsed = [] ∧ c.hbm.spillFree = s.blk.hbm.spillFree ++ [t] ∧ tget 0 c.hbm.pt (65536 * n + i) = ptWord k false ∧
        tget 0 (padGet c z.paddock).pages k = n + 1 ∧
        (∀ j, tget 0 c.hbm.mem j = if a ≤ j ∧ j < a + 32768 then l.getD (j - a) 0 else tget 0 s.blk.hbm.mem j))) ∧
    (∀ (w : Word), actServed s.blk = true → bit w 0 = true → bit w 1 = true → bit (regGet s.blk 0x8020C) 0 = true →
      spilledSlots s.blk = [n.val] → z.st = 3 → spilledEntries s.blk n = [(i, e)] → fld e 0 22 = t.1 → s.blk.hbm.spillUsed = [t] →
      0 < pagesOpen s.blk z.paddock n →
      Effect (.recall w [none]) s (fun c => slotGet c n = { z with st := 4 } ∧ c.out = s.blk.out ++ [.readBack t.2] ∧
        c.hbm = { s.blk.hbm with recalling := false }) ∧
      Effect (.recall w []) s (fun c => slotGet c n = z ∧ c.out = s.blk.out ∧ c.hbm = { s.blk.hbm with recalling := true })))

/-! ### Attestation, the settings store and firmware (R482 to R503) -/

/-- Each DOE request is answered with its result and voids the challenge; a signing request without a usable leaf is held until a
RESERVE commits or 1 s passes, and requests behind it wait in order; store commands run one at a time; a bundle that verifies goes to the other slot, its header last; and
`ARB_COMMIT` raises the thermometer to the running bundle's level. -/
def Obligations.AttestationStoreAndFirmware : Prop :=
  (∀ (s : State), isReady s.blk 1 0 = true → s.blk.flt.fatal = false → (s.blk.pwr.recovery = true ∨ isReady s.blk 0 0 = true) →
    s.blk.sec.held = none →
    let x := { s.blk.sec with challenge := none }
    let said := fun (c : Block) (y : SecS) (code status : Nat) (l : List Byte) =>
      c = { s.blk with sec := y, out := s.blk.out ++ [.doe code status l] }
    let key := if x.lifecycle = 3 then Config.noKey else padTo 60 (Config.attestKey x.seed)
    Effect .getIdentity s (fun c => said c x 1 0 (bytesOf 8 x.serial.toNat ++ key ++ bytesOf 4 x.lifecycle)) ∧
    (∀ nonce, (x.lifecycle ≠ 2 → Effect (.getReport nonce) s (fun c => said c x 2 3 [])) ∧
      (x.lifecycle = 2 → 2 ^ 30 ≤ x.next → Effect (.getReport nonce) s (fun c => said c x 2 2 [])) ∧
      (x.lifecycle = 2 → x.next < 2 ^ 30 → x.usable = false → Effect (.getReport nonce) s (fun c =>
        c = { s.blk with sec := { x with held := some nonce, heldAt := s.blk.time } })) ∧
      (x.lifecycle = 2 → x.next < 2 ^ 30 → x.usable = true → Effect (.getReport nonce) s (fun c =>
        ∃ l, l.length = 2816 ∧ leAt l 0 4 = 0x5241444F ∧ (l.drop 16).take 32 = bytesOf 32 nonce.toNat ∧
          (l.drop 48).take 8 = bytesOf 8 s.blk.time ∧ leAt l 176 4 = x.next ∧
          said c { x with next := x.next + 1, usable := decide ((x.next + 1) % 1024 ≠ 0) } 2 0
            (l ++ padTo 5396 (Config.attestSign x.seed x.next l))))) ∧
    (debugLevel s.blk ≠ 1 → Effect .debugChallenge s (fun c => said c x 3 3 [])) ∧
    (debugLevel s.blk = 1 → Effect .debugChallenge s (fun c => ∃ n : BitVec 256, c = { s.blk with
      sec := { x with challenge := some n }, freeCtr := s.blk.freeCtr + 1, out := s.blk.out ++ [.doe 3 0 (bytesOf 32 n.toNat)] })) ∧
    (∀ sig, (debugLevel s.blk ≠ 1 → Effect (.debugUnlock sig) s (fun c => said c x 4 3 [])) ∧
      (debugLevel s.blk = 1 → s.blk.sec.challenge = none → Effect (.debugUnlock sig) s (fun c => said c x 4 4 [])) ∧
      (∀ n : BitVec 256, debugLevel s.blk = 1 → s.blk.sec.challenge = some n → x.fwKey ≠ [] →
        let good := Config.hssVerify x.fwKey (bytesOf 32 n.toNat ++ bytesOf 8 x.serial.toNat) sig
        (good = true → Effect (.debugUnlock sig) s (fun c => unlocked c = true ∧ (∀ o, o ≠ 0x330048 → regGet c o = regGet s.blk o) ∧
          { c with regs := s.blk.regs } = { s.blk with sec := x, out := s.blk.out ++ [.doe 4 0 []] })) ∧
        (good = false → Effect (.debugUnlock sig) s (fun c => said c x 4 4 [])))) ∧
    (∀ (w : Word) (ok : Bool),
      (x.lifecycle ≠ 1 → Effect (.policyProgram w ok) s (fun c => said c x 5 3 [])) ∧
      (x.lifecycle = 1 → 128 ≤ w.toNat → Effect (.policyProgram w ok) s (fun c => said c x 5 5 [])) ∧
      (x.lifecycle = 1 → w.toNat < 128 → Effect (.policyProgram w ok) s (fun c =>
        said c (if ok then { x with policy := x.policy ||| BitVec.ofNat 7 w.toNat } else x) 5 (if ok then 0 else 6) [])) ∧
      (3 ≤ x.lifecycle → Effect (.lifecycleAdvance w ok) s (fun c => said c x 6 3 [])) ∧
      (x.lifecycle < 3 → w.toNat ≠ x.lifecycle + 1 → Effect (.lifecycleAdvance w ok) s (fun c => said c x 6 5 [])) ∧
      (x.lifecycle < 3 → w.toNat = x.lifecycle + 1 → ok = false → Effect (.lifecycleAdvance w ok) s (fun c => said c x 6 6 [])) ∧
      (x.lifecycle < 3 → w.toNat = x.lifecycle + 1 → ok = true → Effect (.lifecycleAdvance w ok) s (fun c =>
        regFld c 0x330000 0 2 = x.lifecycle + 1 ∧ (∀ o, o ≠ 0x330000 → regGet c o = regGet s.blk o) ∧ { c with regs := s.blk.regs } =
          { s.blk with sec := { x with lifecycle := x.lifecycle + 1 }, out := s.blk.out ++ [.doe 6 0 []] })))) ∧
  (∀ (s : State) (nonce : BitVec 256), s.blk.sec.held = some nonce →
    (s.blk.sec.waiting = [] → s.blk.sec.heldAt + 1000000000 ≤ s.blk.time → Effect .signingHoldTimeout s (fun c =>
      c = { s.blk with sec := { s.blk.sec with held := none }, out := s.blk.out ++ [.doe 2 1 []] })) ∧
    (isReady s.blk 1 0 = true → s.blk.flt.fatal = false → (s.blk.pwr.recovery = true ∨ isReady s.blk 0 0 = true) →
      let waits := fun (i : Instr) (d : DoeCmd) =>
        Effect i s (fun c => c = { s.blk with sec := { s.blk.sec with waiting := s.blk.sec.waiting ++ [d] } })
      waits .getIdentity .identity ∧ waits .debugChallenge .challenge ∧ (∀ n, waits (.getReport n) (.report n)) ∧
      (∀ sig, waits (.debugUnlock sig) (.unlock sig)) ∧ ∀ w ok, waits (.policyProgram w ok) (.policy w ok) ∧
        waits (.lifecycleAdvance w ok) (.advance w ok))) ∧
  (∀ (s : State) (w : Word), actServed s.blk = true → fld w 24 8 = 0x53 → bit w 2 = true →
    let failed := fun (c : Block) (cause : Nat) => regFld c 0x320004 8 4 = cause ∧ regFld c 0x320004 16 16 = 0x0501 ∧
      (∀ o, o ≠ 0x320004 → regGet c o = regGet s.blk o) ∧ { c with regs := s.blk.regs } = s.blk
    (s.blk.sec.cmd ≠ none → Effect (.storeCommit w) s (fun c => failed c 1) ∧ Effect (.storeReserve w) s (fun c => failed c 1) ∧
      Effect (.storeClearLog w) s (fun c => failed c 1)) ∧
    (s.blk.sec.cmd = none → s.blk.flt.storeDown = true → Effect (.storeCommit w) s (fun c => failed c 3) ∧
      Effect (.storeReserve w) s (fun c => failed c 3) ∧ Effect (.storeClearLog w) s (fun c => failed c 3)) ∧
    (s.blk.sec.cmd = none → s.blk.flt.storeDown = false →
      (fld w 0 2 = 0 → Effect (.storeCommit w) s (fun c => ∃ k head, k < 2 ∧ (∀ j, bankInForce s.blk = some j → k ≠ j) ∧
        leAt head 0 4 = 0x4254534F ∧ leAt head 16 4 = 0x2660 ∧ head.drop 32 = sha256 (stagedBody s.blk) ∧
        (stagedBody s.blk).length = 0x2620 ∧
        (∀ j, bankInForce s.blk = some j → leAt head 8 8 = (bankGen s.blk j + 1) % 2 ^ 64) ∧
        (∀ a, tget 0 c.sec.store a = if bankBase k + 0x40 ≤ a ∧ a < bankBase k + 0x2660 then (stagedBody s.blk).getD (a - bankBase k - 0x40) 0
          else tget 0 s.blk.sec.store a) ∧
        { c with sec := { c.sec with store := s.blk.sec.store } } = { s.blk with sec := { s.blk.sec with cmd := some ⟨0, k, head⟩ } })) ∧
      (fld w 0 2 = 1 → s.blk.sec.held = none → Effect (.storeReserve w) s (fun c => failed c 4)) ∧
      (fld w 0 2 = 1 → s.blk.sec.held ≠ none → s.blk.sec.next / 1024 ≤ 1048575 → Effect (.storeReserve w) s (fun c =>
        c = { s.blk with sec := { s.blk.sec with cmd := some ⟨1, 0, []⟩ } })) ∧
      (fld w 0 2 = 2 → Effect (.storeClearLog w) s (fun c => c = { s.blk with sec := { s.blk.sec with cmd := some ⟨2, 0, []⟩ } })) ∧
      (fld w 0 2 = 3 → Effect (.storeCommit w) s (fun c => failed c 7)))) ∧
  (∀ (s : State) (m : StoreCmd), s.blk.sec.cmd = some m →
    let x := { s.blk.sec with cmd := none }
    let stored := fun (c : Block) (f : Nat → Option Byte) => regFld c 0x320004 16 16 = 0 ∧
      (∀ o, o ≠ 0x320004 → regGet c o = regGet s.blk o) ∧ (∀ a, tget 0 c.sec.store a = (f a).getD (tget 0 s.blk.sec.store a))
    (Effect (.storeCommandDone false) s (fun c => regFld c 0x320004 8 4 = 2 ∧ regFld c 0x320004 16 16 = 0x0501 ∧
      { c with regs := s.blk.regs } = { s.blk with sec := x })) ∧
    (m.op = 0 → Effect (.storeCommandDone true) s (fun c =>
      stored c (fun a => if bankBase m.bank ≤ a then m.header[a - bankBase m.bank]? else none) ∧
      { c with regs := s.blk.regs } = { s.blk with sec := { x with store := c.sec.store } })) ∧
    (m.op = 1 → s.blk.sec.held = none → let k := x.next / 1024
      Effect (.storeCommandDone true) s (fun c => c.sec.usable = true ∧
        stored c (fun a => if 0x380000 + 64 * (k % 8192) ≤ a then (resvRecord k)[a - (0x380000 + 64 * (k % 8192))]? else none) ∧
        { c with regs := s.blk.regs } = { s.blk with sec := { x with store := c.sec.store, usable := true } })) ∧
    (∀ nonce, m.op = 1 → s.blk.sec.held = some nonce → s.blk.sec.waiting = [] → Effect (.storeCommandDone true) s (fun c => c.sec.held = none ∧
      c.sec.next = x.next + 1 ∧ ∃ l, leAt l 0 4 = 0x5241444F ∧ (l.drop 16).take 32 = bytesOf 32 nonce.toNat ∧
        c.out = s.blk.out ++ [.doe 2 0 (l ++ padTo 5396 (Config.attestSign x.seed x.next l))])) ∧
    (m.op = 2 → Effect (.storeCommandDone true) s (fun c =>
      stored c (fun a => if 0x300000 ≤ a ∧ a < 0x380000 ∧ a % 4096 < 4 then some 0 else none) ∧
      { c with regs := s.blk.regs } = { s.blk with sec := { x with store := c.sec.store } }))) ∧
  (∀ (s : State) (w : Word) (bundle : List Byte), actServed s.blk = true → fld w 24 8 = 0x55 → s.blk.sec.upd = none →
    let l := bundle.take (regFld s.blk 0x330068 0 24)
    (bit w 0 = true → bit w 1 = false → bundleStatus s.blk l ≠ 0 → Effect (.firmwareUpdateGo w bundle) s (fun c =>
      regFld c 0x330070 16 16 = bundleStatus s.blk l ∧ { c with regs := s.blk.regs } = s.blk)) ∧
    (bit w 0 = true → bit w 1 = false → bundleStatus s.blk l = 0 →
      let k := 1 - regFld s.blk 0x330040 8 1
      Effect (.firmwareUpdateGo w bundle) s (fun c => (∀ a, tget 0 c.sec.flash a =
          if slotBase k ≤ a ∧ a < slotBase k + 256 then 0
          else if slotBase k ≤ a ∧ a < slotBase k + bundleLen l then l.getD (a - slotBase k) 0 else tget 0 s.blk.sec.flash a) ∧
        { c with sec := { c.sec with flash := s.blk.sec.flash } } = { s.blk with sec := { s.blk.sec with upd := some ⟨k, l.take 256⟩ } })) ∧
    (bit w 0 = false → bit w 1 = true → let n := regFld s.blk 0x330040 0 8
      n ≤ 128 → Effect (.arbCommit w) s (fun c => blown c.sec.therm = max n (blown s.blk.sec.therm) ∧
        (∀ i < 128, bit s.blk.sec.therm i = true → bit c.sec.therm i = true) ∧
        (∀ i < 4, regGet c (0x330030 + 4 * i) = BitVec.ofNat 32 (fld c.sec.therm (32 * i) 32)) ∧
        { c with regs := s.blk.regs, sec := s.blk.sec } = s.blk))) ∧
  (∀ (s : State) (u : FwUpdate), s.blk.sec.upd = some u →
    let done := fun (c : Block) (status : Nat) => regFld c 0x330070 16 16 = status ∧ c.sec.upd = none ∧
      { c with regs := s.blk.regs, sec := s.blk.sec } = s.blk
    Effect (.firmwareUpdateDone true) s (fun c => done c 0 ∧ (∀ a, tget 0 c.sec.flash a =
      if slotBase u.slot ≤ a ∧ a < slotBase u.slot + u.header.length then u.header.getD (a - slotBase u.slot) 0 else tget 0 s.blk.sec.flash a)) ∧
    Effect (.firmwareUpdateDone false) s (fun c => done c 0x0501 ∧ c.sec.flash = s.blk.sec.flash))

/-! ### Debug access and BAR0 accesses (R14 to R18, R208 to R211, R464, R481, R505, R516) -/

/-- A poke sets, adds to or subtracts from the selected counter, saturating, logs `SYNC_POKE` and marks the paddock tampered, or is
rejected; `RESOLVE` translates a virtual ID; a read returns the addressed bytes, latches an upper half, or steps the log's word
select; a write acts on the words that it covers whole, and on none in the fatal state. -/
def Obligations.DebugAndRegisterAccesses : Prop :=
  (∀ (s : State) (w : Word), actServed s.blk = true →
    let k := 59 * regFld s.blk 0x70000 9 7 + regFld s.blk 0x70000 16 6
    let n := regFld s.blk 0x70000 0 9
    let v := ctrGet s.blk k n
    let rejected := fun (c : Block) => regFld c 0x70014 0 1 = 1 ∧ (∀ o, o ≠ 0x70014 → regGet c o = regGet s.blk o) ∧
      { c with regs := s.blk.regs } = s.blk
    let poked := fun (c : Block) (p : Nat) (op new : Nat) => ctrGet c k n = new ∧ (∀ j m, (j ≠ k ∨ m ≠ n) → j < 4720 → n < 512 → m < 512 →
        ctrGet c j m = ctrGet s.blk j m) ∧ c.die.waiters = s.blk.die.waiters ∧ c.die.thr = s.blk.die.thr ∧
      (padGet c p).tampered = true ∧ (∀ r, r ≠ p → padGet c r = padGet s.blk r) ∧ c.hbm = s.blk.hbm ∧ c.out = s.blk.out ∧
      regFld c 0x70014 0 1 = 0 ∧ (∀ o, o ≠ 0x70014 → regGet c o = regGet s.blk o) ∧
      ∃ r, c.reports = s.blk.reports ++ [r] ∧ r.source = 0x107 ∧ r.cls = corrected ∧ fld r.d0 12 6 = p ∧ fld r.d0 26 4 = op ∧
        fld r.d0 30 1 = 1 ∧ fld r.d1 0 9 = n ∧ fld r.d1 9 7 = keyCol k ∧ fld r.d2 0 24 = fld w 0 24 ∧ fld r.d3 0 24 = new % 2 ^ 24
    (∀ p, debugOpen s.blk = true → fld w 26 6 = 0x2D → regFld s.blk 0x70000 9 7 < 80 → regFld s.blk 0x70000 16 6 < 59 →
      padOf s.blk k = some p → tget 0 s.blk.die.ctrErr (512 * k + n) = 0 → (∀ x ∈ s.blk.die.waiters, x.team ≠ k ∨ x.ctr ≠ n) →
      (fld w 24 2 = 0 → Effect (.syncdbgPokeSet w) s (fun c => poked c p 0 (fld w 0 24))) ∧
      (fld w 24 2 = 1 → Effect (.syncdbgPokeAdd w) s (fun c => poked c p 1 (min 16777215 (v + fld w 0 24)))) ∧
      (fld w 24 2 = 2 → Effect (.syncdbgPokeSubtract w) s (fun c => poked c p 2 (v - fld w 0 24)))) ∧
    (fld w 26 6 ≠ 0x2D ∨ fld w 24 2 = 3 ∨ debugOpen s.blk = false ∨ 80 ≤ regFld s.blk 0x70000 9 7 ∨ 59 ≤ regFld s.blk 0x70000 16 6 ∨
        padOf s.blk k = none →
      Effect (.syncdbgPokeSet w) s rejected ∧ Effect (.syncdbgPokeAdd w) s rejected ∧ Effect (.syncdbgPokeSubtract w) s rejected) ∧
    (bit w 31 = true → let x := padGet s.blk (fld w 12 6)
      let kept := fun (c : Block) => regFld c 0x70004 0 18 = fld w 0 18 ∧
        (∀ o, o ≠ 0x70000 → o ≠ 0x70004 → o ≠ 0x70014 → regGet c o = regGet s.blk o) ∧ { c with regs := s.blk.regs } = s.blk
      (∀ e, debugOpen s.blk = true → x.st ≠ .free → translate s.blk (fld w 12 6) (fld w 0 12) = some e → e.ctr < 512 →
        x.col + e.u < 80 → x.row + e.v < 59 → Effect (.resolve w) s (fun c => kept c ∧ regFld c 0x70014 0 1 = 0 ∧
          regFld c 0x70000 0 9 = e.ctr ∧ regFld c 0x70000 9 7 = x.col + e.u ∧ regFld c 0x70000 16 6 = x.row + e.v)) ∧
      (debugOpen s.blk = false ∨ x.st = .free ∨ translate s.blk (fld w 12 6) (fld w 0 12) = none → Effect (.resolve w) s (fun c =>
        kept c ∧ regFld c 0x70014 0 1 = 1 ∧ regGet c 0x70000 = regGet s.blk 0x70000)))) ∧
  (∀ (s : State) (off : Nat),
    let quiet := fun (o : Nat) => wideLow o = false ∧ (4 ≤ o → wideLow (o - 4) = false) ∧ o ≠ 0x60208 ∧ ¬(0x60050 ≤ o ∧ o < 0x60070)
    let bytes := fun (word : Nat → Word) (n : Nat) =>
      (List.range n).map (fun i => (bytesOf 4 (word ((off + i) / 4 * 4)).toNat).getD ((off + i) % 4) 0)
    let whole := fun (v : Word) => bytesOf 4 v.toNat
    let gave := fun (c : Block) (l : List Byte) => c = { s.blk with out := s.blk.out ++ [.regRead false off l] }
    (isReady s.blk 1 0 = true →
      (s.blk.flt.fatal = false → s.blk.pwr.recovery = false →
        (∀ n, 0 < n → (∀ i < n, quiet ((off + i) / 4 * 4)) →
          Effect (.wideRegisterLowRead ⟨false, off, n⟩) s (fun c => gave c (bytes (bar0Read s.blk) n))) ∧
        (off % 4 = 0 → wideLow off = true → Effect (.wideRegisterLowRead ⟨false, off, 4⟩) s (fun c =>
          c.out = s.blk.out ++ [.regRead false off (whole (bar0Read s.blk off))] ∧
          tget none c.mgmt.latch (regKey s.blk (off + 4)) = some (bar0Read s.blk (off + 4)) ∧
          { c with out := s.blk.out, mgmt := { c.mgmt with latch := s.blk.mgmt.latch } } = s.blk) ∧
          (wideLow (off + 4) = false → Effect (.wideRegisterLowRead ⟨false, off, 8⟩) s (fun c =>
            c.out = s.blk.out ++ [.regRead false off (bytes (bar0Read s.blk) 8)] ∧
            tget none c.mgmt.latch (regKey s.blk (off + 4)) = none ∧
            { c with out := s.blk.out, mgmt := { c.mgmt with latch := s.blk.mgmt.latch } } = s.blk))) ∧
        (off % 4 = 0 → 4 ≤ off → wideLow off = false → wideLow (off - 4) = true →
          (∀ u, tget none s.blk.mgmt.latch (regKey s.blk off) = some u → Effect (.wideRegisterLowRead ⟨false, off, 4⟩) s (fun c =>
            c.out = s.blk.out ++ [.regRead false off (whole u)] ∧ tget none c.mgmt.latch (regKey s.blk off) = none ∧
            { c with out := s.blk.out, mgmt := { c.mgmt with latch := s.blk.mgmt.latch } } = s.blk)) ∧
          (tget none s.blk.mgmt.latch (regKey s.blk off) = none → Effect (.wideRegisterLowRead ⟨false, off, 4⟩) s (fun c =>
            gave c (whole (bar0Read s.blk off))))) ∧
        Effect .faultFlogDataRead s (fun c => c.out = s.blk.out ++ [.regRead false 0x60208 (whole (bar0Read s.blk 0x60208))] ∧
          regFld c 0x60204 7 10 = (regFld s.blk 0x60204 7 10 + 1) % 1024 ∧ regFld c 0x60204 0 7 = regFld s.blk 0x60204 0 7 ∧
          (∀ o, o ≠ 0x60204 → regGet c o = regGet s.blk o) ∧ { c with out := s.blk.out, regs := s.blk.regs } = s.blk)) ∧
      (∀ n, 0 < n → s.blk.flt.fatal = true → (∀ i < n, (off + i) / 0x10000 ∉ [0, 1, 3, 5, 6]) →
        Effect (.wideRegisterLowRead ⟨false, off, n⟩) s (fun c => gave c (List.replicate n 0xFF))) ∧
      (∀ n, 0 < n → s.blk.flt.fatal = false → s.blk.pwr.recovery = true → (∀ i < n, (off + i) / 0x10000 ∉ [0, 1, 0x32, 0x33]) →
        Effect (.wideRegisterLowRead ⟨false, off, n⟩) s (fun c => gave c (List.replicate n 0))) ∧
      (∀ n, Effect (.wideRegisterLowRead ⟨true, off, n⟩) s (fun c =>
        c = { s.blk with out := s.blk.out ++ [.regRead true off (bytes (bar2Read s.blk) n)] })) ∧
      (∀ w : Word, off < 2048 → let x := vecGet s.blk off
        let table := fun (k : Nat) (P : Block → Prop) => Effect (.registerWrite ⟨true, 16 * off + k⟩ (bytesOf 4 w.toNat)) s P
        let only := fun (c : Block) => (∀ v, v ≠ off → vecGet c v = vecGet s.blk v) ∧
          { c with host := { c.host with vecs := s.blk.host.vecs }, out := s.blk.out } = s.blk
        table 0 (fun c => only c ∧ c.out = s.blk.out ∧ vecGet c off = { x with addr := setFld x.addr 0 32 (w.toNat / 4 * 4) }) ∧
        table 4 (fun c => only c ∧ c.out = s.blk.out ∧ vecGet c off = { x with addr := setFld x.addr 32 32 w.toNat }) ∧
        table 8 (fun c => only c ∧ c.out = s.blk.out ∧ vecGet c off = { x with data := w }) ∧
        (bit w 0 = true → table 12 (fun c => only c ∧ c.out = s.blk.out ∧ vecGet c off = { x with masked := true })) ∧
        (bit w 0 = false → x.pend = true → hostStopped s.blk = false → table 12 (fun c => only c ∧
          c.out = s.blk.out ++ [.msix off x.addr x.data] ∧ vecGet c off = { x with masked := false, pend := false })))) ∧
    (isReady s.blk 1 0 = false → ∀ x, exec (.wideRegisterLowRead x) s = .next s) ∧
    (rootRuns s.blk = true → ((∀ i < 4, quiet ((off + i) / 4 * 4)) → Effect (.mi3cRegisterRead off) s (fun c => c = { s.blk with
        out := s.blk.out ++ [.mi3cRead off (bytes (fun o => if mgmtServed o then bar0Read s.blk o else 0) 4)] })) ∧
      (∀ a, Effect (.mi3cEntdaa a) s (fun c => c = { s.blk with mgmt := { s.blk.mgmt with addr := some a } }))) ∧
    (rootRuns s.blk = false → exec (.mi3cRegisterRead off) s = .next s ∧ ∀ a, exec (.mi3cEntdaa a) s = .next s)) ∧
  (∀ (s : State) (off : Nat) (data : List Byte),
    (data.length < 4 ∨ (data.length = 4 ∧ off % 4 ≠ 0) → exec (.registerWrite ⟨false, off⟩ data) s = .next s) ∧
    (s.blk.flt.fatal = true → Effect (.registerWrite ⟨false, off⟩ data) s (fun c => { c with freeCtr := s.blk.freeCtr } = s.blk)) ∧
    (∀ more, off % 4 = 0 → data.length = 4 → ∃ t, exec (.registerWrite ⟨false, off⟩ data) s = .next t ∧
      exec (.registerWrite ⟨false, off⟩ (data ++ more)) s = exec (.registerWrite ⟨false, off + 4⟩ more) t) ∧
    (∀ w : Word, writeServed s.blk = true → data = bytesOf 4 w.toNat →
      let only := fun (c : Block) (k : Nat) => (∀ o, o ≠ k → regGet c o = regGet s.blk o) ∧
        (∀ o, o ≠ k → tget none c.mgmt.latch o = tget none s.blk.mgmt.latch o) ∧
        { c with regs := s.blk.regs, mgmt := { c.mgmt with latch := s.blk.mgmt.latch } } = s.blk
      (off = 0x80 → Effect (.registerWrite ⟨false, off⟩ data) s (fun c => regGet c 0x80 = w ∧ only c 0x80)) ∧
      (off = 0x60004 → Effect (.registerWrite ⟨false, off⟩ data) s (fun c =>
        regGet c 0x60004 = regGet s.blk 0x60004 &&& ~~~(w &&& 0x1C) ∧ only c 0x60004)) ∧
      (off = 0x2000C → let q := regFld s.blk 0x20000 0 10
        ((rpGet s.blk q).st = 0 → Effect (.registerWrite ⟨false, off⟩ data) s (fun c => fld (ringReg c q 0x2000C) 0 11 = fld w 0 11 ∧
          bit (ringReg c q 0x2000C) 15 = bit w 15 ∧ fld (ringReg c q 0x2000C) 16 11 = fld w 16 11 ∧ bit (ringReg c q 0x2000C) 31 = bit w 31 ∧
          only c (0x2000C + 2 ^ 22 * (q + 1)))) ∧
        ((rpGet s.blk q).st ≠ 0 → exec (.registerWrite ⟨false, off⟩ data) s = .next s)) ∧
      (0xA0000 ≤ off → off < 0x100000 → off % 4 = 0 → Effect (.registerWrite ⟨false, off⟩ data) s (fun c =>
        (∀ o, regGet c o = regGet s.blk o) ∧ only c off))))

/-! ### Faults (R457 to R474) -/

/-- A collector cycle writes the records of the faults it samples in their order, promotes a source over its threshold, fences a
paddock and opens its window, or enters the fatal state; a window ends by default or as acknowledged; the first fault stands until
cleared; and an armed injection is recorded as one. -/
def Obligations.FaultHandling : Prop :=
  (∀ (s : State) (d e : Detect), clocked s.blk = true → s.blk.flt.fatal = false → s.blk.reports = [] → s.blk.flt.inj = none →
    s.blk.host.evtOn = false → s.blk.flt.log.length < 4095 →
    let f := s.blk.flt
    let n := nextNum f.newest
    let sound := fun (x : Detect) => knownSource x.source = true ∧ x.railBroken = false ∧ x.detailBad = false ∧ hasPlace x.source = false ∧
      isHbmSource x.source 1 = false ∧ isHbmSource x.source 2 = false
    let calm := fun (x : Detect) => tget 0 f.rate x.source + 1 < regFld s.blk 0x600A0 0 16
    let recOf := fun (m : Nat) (x : Detect) (cls : Nat) (companion : Bool) (flags action : Nat) =>
      (⟨m, x.source, cls, companion, flags, action, s.blk.time, x.d0, x.d1, x.d2, x.d3⟩ : Rec)
    (∀ j < 8, d.cls = 1 → d.railBroken = false → d.detailBad = false → calm d → let off := 0x80000 + 4 * j
      let seen := fun (c : Block) (lo w v : Nat) => c.flt.log = f.log ++ [recOf n d 1 false 16 9] ∧ regFld c off lo w = v ∧
        (∀ k, k ≠ off → regGet c k = regGet s.blk k) ∧ { c with flt := f, regs := s.blk.regs } = s.blk
      (d.source = 0x42 + 16 * j → Effect (.faultReport [d]) s (fun c => seen c 16 16 (min 65535 (regFld s.blk off 16 16 + 1)))) ∧
      (d.source = 0x41 + 16 * j → d.sessions = [] → Effect (.faultReport [d]) s (fun c => seen c 2 1 1))) ∧
    (isTeamSource d.source = true → (d.source - 0x400) % 60 = (tget (59, false) s.blk.retired ((d.source - 0x400) / 60)).1 →
      exec (.faultReport [d]) s = .next s) ∧
    (sound d →
    (d.cls = 1 → calm d → Effect (.faultReport [d]) s (fun c => c.flt.log = f.log ++ [recOf n d 1 false 16 9] ∧ c.flt.newest = n ∧
      c.flt.first = (if f.first.isSome then f.first else some (recOf n d 1 false 16 9)) ∧
      tget 0 c.flt.rate d.source = tget 0 f.rate d.source + 1 ∧
      tget 0 c.flt.counts d.source = min (2 ^ 32 - 1) (tget 0 f.counts d.source + 1) ∧ { c with flt := f } = s.blk)) ∧
    (d.cls = 1 → e.cls = 1 → sound e → d.source < e.source → calm d → calm e → let l := [recOf n d 1 false 16 9, recOf (nextNum n) e 1 true 16 9]
      Effect (.faultReport [d, e]) s (fun c => c.flt.log = f.log ++ l ∧ { c with flt := f } = s.blk) ∧
      Effect (.faultReport [e, d]) s (fun c => c.flt.log = f.log ++ l ∧ { c with flt := f } = s.blk)) ∧
    (d.cls = 1 → 0x3B0 ≤ d.source → d.source ≤ 0x3B9 → regFld s.blk 0x600A0 0 16 < tget 0 f.rate d.source → d.source ∉ f.promoted →
      Effect (.faultReport [d]) s (fun c => c.flt.log = f.log ++ [recOf n d 2 false 18 9] ∧ d.source ∈ c.flt.promoted ∧
        c.flt.rate = f.rate ∧ { c with flt := f } = s.blk)) ∧
    (∀ p, d.cls = 2 → d.source = 0x110 → fld d.d0 19 6 = p → (padGet s.blk p).st = .ready → (padGet s.blk p).step = none →
      (padGet s.blk p).doomed = false → (padGet s.blk p).faulted = [] → boundSlots s.blk p = [] → padFailed s.blk (padGet s.blk p) = false →
      windowOn s.blk (.paddock p) = false → Effect (.faultReport [d]) s (fun c => c.flt.log.getLast? = some (recOf n d 2 false 0 0) ∧
        c.flt.windows = f.windows ++ [⟨n, .paddock p, 2, s.blk.time + 1000 * max 10 (min (regFld s.blk 0x60000 8 17) 100000)⟩] ∧
        padGet c p = { padGet s.blk p with st := .fenced, back := .ready, quiet := false, act := 0 } ∧
        OnlyPad s.blk c p ∧ (∀ k, (padGet s.blk p).has (k / 256) = true → (thrGet c k).st = .parked) ∧
        (∀ k, (padGet s.blk p).has (k / 256) = false → thrGet c k = thrGet s.blk k) ∧ c.hbm = s.blk.hbm ∧ c.out = s.blk.out ∧ c.regs = s.blk.regs)) ∧
    ((∀ p, (padGet s.blk p).step = none ∧ (padGet s.blk p).doomed = false ∧ (padGet s.blk p).faulted = []) →
      s.blk.sec.cmd = none →
      (d.cls = 3 → Effect (.faultReport [d]) s (fun c => c.flt.fatal = true ∧ c.flt.windows = [] ∧
        c.flt.fatalRec = some (recOf n d 3 false 16 8) ∧ c.flt.log.getLast? = some (recOf n d 3 false 16 8) ∧
        (∀ p < 64, (padGet s.blk p).st ≠ .free → (padGet c p).st = .fenced) ∧ c.hbm = s.blk.hbm ∧ c.sec = s.blk.sec)) ∧
      (d.cls = 2 → d.source ≤ 3 → Effect (.faultReport [d]) s (fun c => c.flt.fatal = true ∧
        c.flt.fatalRec = some (recOf n d 2 false 48 8) ∧ (∀ p < 64, (padGet s.blk p).st ≠ .free → (padGet c p).st = .fenced)))))) ∧
  (∀ (s : State) (i : Report), clocked s.blk = true → s.blk.flt.fatal = false → s.blk.reports = [] → s.blk.flt.inj = some i → i.injected = true →
    i.railBroken = false → i.cls = 1 → hasPlace i.source = false → s.blk.host.evtOn = false → s.blk.flt.log.length < 4096 →
    Effect (.faultReport []) s (fun c => c.flt.inj = none ∧ c.flt.log = s.blk.flt.log ++
      [⟨nextNum s.blk.flt.newest, i.source, 1, false, 80, 9, s.blk.time, i.d0, i.d1, i.d2, i.d3⟩] ∧ { c with flt := s.blk.flt } = s.blk)) ∧
  (∀ (s : State),
    (s.blk.flt.fatal = true → s.blk.flt.stored = false → rootRuns s.blk = true → Effect .fatalRecordStore s (fun c => ∃ k l,
      k = (match flogNewest s.blk with
        | some (_, j) => j + 1
        | none => 0) ∧
      l.length = 4096 ∧ leAt l 0 4 = 0x4C464446 ∧ leAt l 4 4 = k % 2 ^ 32 ∧ (l.drop 8).take 8 = bytesOf 8 s.blk.time ∧
      (∀ r, s.blk.flt.fatalRec = some r → (l.drop 16).take 32 = recBytes r) ∧ (∀ r, s.blk.flt.first = some r → (l.drop 48).take 32 = recBytes r) ∧
      (∀ a, tget 0 c.sec.store a = if 0x300000 + 4096 * (k % 128) ≤ a ∧ a < 0x301000 + 4096 * (k % 128) then
        l.getD (a - (0x300000 + 4096 * (k % 128))) 0 else tget 0 s.blk.sec.store a) ∧
      { c with sec := { c.sec with store := s.blk.sec.store } } = { s.blk with flt := { s.blk.flt with stored := true } })) ∧
    (s.blk.flt.fatal = false → exec .fatalRecordStore s = .next s) ∧
    Effect .promotionSecondRollover s (fun c => c = { s.blk with flt := { s.blk.flt with rate := [], teamRate := [], promoted := [] } })) ∧
  (∀ (s : State) (n w : Word) (p a z : Nat), let f := s.blk.flt
    let x := padGet s.blk p
    let closed := fun (c : Block) (act mark : Nat) =>
      c.flt = { f with windows := f.windows.filter (fun v => v.num ≠ n.toNat), log := f.log.map (fun r => if r.num = n.toNat then
        { r with action := act, rflags := (r.rflags ||| mark) % 16 + (r.rflags ||| mark) / 32 * 32 } else r) } ∧
      padGet c p = { x with act := act, recs := x.recs ++ [n.toNat] } ∧ OnlyPad s.blk c p ∧ { c with flt := f, pads := s.blk.pads } = s.blk
    windowsOf s.blk n.toNat = [⟨n.toNat, .paddock p, a, z⟩] → x.st = .fenced → x.quiet = false →
    (s.blk.time < z → exec (.faultWindowExpiry n) s = .next s) ∧
    (clocked s.blk = true → f.fatal = false → z ≤ s.blk.time → padFailed s.blk x = false → a ≠ 3 → Effect (.faultWindowExpiry n) s (fun c => closed c a 0)) ∧
    (actServed s.blk = true → regGet s.blk 0x60080 = n → fld w 24 8 = 0x46 →
      (fld w 0 2 = 0 → padFailed s.blk x = false → a ≠ 3 → Effect (.faultAckDefault w) s (fun c => closed c a 8)) ∧
      (fld w 0 2 = 1 → Effect (.faultAckReset w) s (fun c => closed c 2 8)) ∧
      (fld w 0 2 = 2 → x.back = .ready → boundSlots s.blk p = [] → x.waiters = [] → s.blk.host.evtOn = false →
        Effect (.faultAckForceOff w) s (fun c => padGet c p = Pad.init ∧ OnlyPad s.blk c p ∧
          c.flt.windows = f.windows.filter (fun v => v.num ≠ n.toNat))))) ∧
  (∀ (s : State) (w : Word), actServed s.blk = true → let f := s.blk.flt
    let n := (regGet s.blk 0x60080).toNat
    let flagged := fun (o lo : Nat) (c : Block) => regFld c o lo 1 = 1 ∧ (∀ k, k ≠ o → regGet c k = regGet s.blk k) ∧ { c with regs := s.blk.regs } = s.blk
    (fld w 24 8 = 0x46 → windowsOf s.blk n = [] ∨ fld w 0 2 = 3 → Effect (.faultAckDefault w) s (flagged 0x60004 3) ∧
      Effect (.faultAckReset w) s (flagged 0x60004 3) ∧ Effect (.faultAckForceOff w) s (flagged 0x60004 3)) ∧
    (∀ a z, fld w 24 8 = 0x46 → fld w 0 2 = 2 → windowsOf s.blk n = [⟨n, .hostif, a, z⟩] → Effect (.faultAckForceOff w) s (flagged 0x60004 3)) ∧
    (∀ e a z, fld w 24 8 = 0x46 → fld w 0 2 = 2 → windowsOf s.blk n = [⟨n, .engine e, a, z⟩] → Effect (.faultAckForceOff w) s (fun c =>
      c.flt.held = f.held ++ [e] ∧ c.flt.waits = f.waits ++ [(e, n)] ∧ c.flt.windows = f.windows.filter (fun v => v.num ≠ n) ∧
      { c with flt := f } = s.blk)) ∧
    (bit w 0 = true → Effect (.faultFirstClr w) s (fun c => c = { s.blk with flt := { f with first := none } })) ∧
    (bit w 0 = false → exec (.faultFirstClr w) s = .next s) ∧
    (bit w 0 = true → fld w 24 8 = 0x49 → let src := regFld s.blk 0x600C0 0 13
      let cls := regFld s.blk 0x600C0 13 2
      (debugOpen s.blk = false ∨ (cls = fatal ∧ debugLevel s.blk ≠ 2) → Effect (.faultInjArm w) s (flagged 0x600C4 2)) ∧
      (debugOpen s.blk = true → (cls = fatal → debugLevel s.blk = 2) → cls ≠ 0 → isTeamSource src = true → (src - 0x400) % 60 = (tget (59, false) s.blk.retired ((src - 0x400) / 60)).1 →
        Effect (.faultInjArm w) s (fun c => c.flt = f ∧ regFld c 0x600C4 2 1 = 0 ∧ { c with flt := f, regs := s.blk.regs } = s.blk)) ∧
      (debugOpen s.blk = true → (cls = fatal → debugLevel s.blk = 2) → cls ≠ 0 → knownSource src = true →
        hasPlace src = false ∨ (isTeamSource src = true ∧ (src - 0x400) % 60 ≠ (tget (59, false) s.blk.retired ((src - 0x400) / 60)).1) →
        Effect (.faultInjArm w) s (fun c =>
        (∃ i, c.flt = { f with inj := some i } ∧ i.source = src ∧ i.cls = cls ∧ i.d0 = regGet s.blk 0x600D0 ∧ i.d1 = regGet s.blk 0x600D4 ∧
          i.d2 = regGet s.blk 0x600D8 ∧ i.d3 = regGet s.blk 0x600DC ∧ i.injected = true) ∧
        regFld c 0x600C4 2 1 = 0 ∧ { c with flt := f, regs := s.blk.regs } = s.blk))))

/-! ### Optical engines, lasers and lanes (R309 to R339) -/

/-- A port start tests every lane that has not failed; a margin test, a sweep, a tone window, a power measurement, a loop update and a
live margin estimate leave what they measured and act at their limits; a migration is requested, taken, passed and switched at a
boundary; a lane that loses lock leaves service; a calibration is refused, runs and completes; the sideband retries; an engine is
reset. -/
def Obligations.OpticalEngines : Prop :=
  (∀ (s : State) (p : Fin 32), (engGet s.blk (p.val / 4)).resetting = false →
    let begun := fun (c : Block) => lpGet c p = { LPort.init with st := 1, rtt := (lpGet s.blk p).rtt } ∧ opGet c p = { OPort.init with phase := 1 } ∧
      (∀ rx k, k < 18 → laneGet c p rx k = (let x := laneGet s.blk p rx k
        if x.dead then { x with st := 5, testing := false, locked := false }
        else if isDark s.blk p k then { x with st := 0, testing := false, locked := false, result := none }
        else { x with st := 5, testing := true, locked := false, result := none, below2 := 0, below1 := 0 })) ∧
      (∀ k l, k < 18 → l < 8 → let i := 144 * (p.val % 4) + 8 * k + l
        let y := tget LoopS.init s.blk.opt.loops (576 * (p.val / 4) + i)
        let code := bankCode s.blk (p.val / 4) i
        tget LoopS.init c.opt.loops (576 * (p.val / 4) + i) = if isDark s.blk p k then y
          else if l < 3 then ⟨code.getD 0, false, false, code.isNone⟩ else { y with locked := false, atLimit := false }) ∧
      (∀ j, j ≠ p.val → lpGet c j = lpGet s.blk j) ∧ (∀ j rx k, j ≠ p.val → k < 18 → laneGet c j rx k = laneGet s.blk j rx k) ∧
      { c with lnk := s.blk.lnk, opt := { c.opt with lanes := s.blk.opt.lanes, ports := s.blk.opt.ports, loops := s.blk.opt.loops } } = s.blk
    (portRouted s.blk p = false →
      (canStart s.blk p = true → (lpGet s.blk p).st = 0 → Effect (.portStart p) s begun) ∧
      ((lpGet s.blk p).st ≠ 0 → exec (.portStart p) s = .next s) ∧
      (canStart s.blk p = true → (lpGet s.blk p).st = 1 → (opGet s.blk p).phase = 1 → Effect (.portStartTimeout p) s begun) ∧
      ((lpGet s.blk p).st = 2 → exec (.portStartTimeout p) s = .next s)) ∧
    (portRouted s.blk p = true → Effect (.portStart p) s (fun c => ∀ w < 16, lpGet c (linkNo p w) =
      if linkStarts s.blk (linkNo p w) then { LPort.init with st := 1, rtt := (lpGet s.blk (linkNo p w)).rtt } else lpGet s.blk (linkNo p w)))) ∧
  (∀ (s : State) (p : Fin 32) (rx : Bool) (k : Fin 18), let x := laneGet s.blk p rx k
    let only := fun (c : Block) (y : Lane) => laneGet c p rx k = y ∧ (∀ j r m, (j, r, m) ≠ (p.val, rx, k.val) → m < 18 →
      laneGet c j r m = laneGet s.blk j r m) ∧ { c with opt := { c.opt with lanes := s.blk.opt.lanes } } = s.blk
    (∀ (errs : List Nat) (fom : Int) (n : Nat), ((errs.take 21).takeWhile (fun e => e ≤ 4026)).length = n →
      let y := { x with testing := false, result := some ((n : Int) - 1), start := n - 1, fs := fom, fom := fom, live := min 255 (5 * (n - 1)) }
      (x.testing = false → rx = false ∨ x.st ≠ 5 ∨ x.dead = true ∨ (lpGet s.blk p).st ≠ 2 ∨ portRouted s.blk p = true →
        exec (.marginTestDone p rx k errs fom) s = .next s) ∧
      (x.testing = true → (opGet s.blk p).phase = 1 → portRouted s.blk p = false →
        ((∃ r, ∃ j < 18, (r, j) ≠ (rx, k.val) ∧ (laneGet s.blk p r j).testing = true) →
          Effect (.marginTestDone p rx k errs fom) s (fun c => only c y)) ∧
        ((∀ r j, j < 18 → (r, j) ≠ (rx, k.val) → (laneGet s.blk p r j).testing = false) →
          ((∀ r j, j < 18 → (r, j) ≠ (rx, k.val) → ∃ v, (laneGet s.blk p r j).result = some v ∧ 6 ≤ v ∧
              (laneGet s.blk p r j).dead = false ∧ (laneGet s.blk p r j).st ≠ 0) → 7 ≤ n → x.dead = false → x.st ≠ 0 →
            Effect (.marginTestDone p rx k errs fom) s (fun c => (opGet c p).phase = 2 ∧ c.reports = s.blk.reports ∧
              (∀ r j, j < 18 → (laneGet c p r j).st = 1 ∨ (laneGet c p r j).st = 2) ∧
              (lpGet c p).ctl = (lpGet s.blk p).ctl ++ [((lpGet s.blk p).ctlNext, .laneMap (inService c p true), 0)])) ∧
          (n < 7 → (∀ j < 18, j ≠ k.val → ∀ v, (laneGet s.blk p rx j).result = some v → v < 6) →
            Effect (.marginTestDone p rx k errs fom) s (fun c => (lpGet c p).st = 0 ∧ (opGet c p).phase = 0 ∧
              ∃ r, c.reports = s.blk.reports ++ [r] ∧ r.source = portSource p 5 ∧ r.cls = contained)))) ∧
      (x.testing = true → (opGet s.blk p).phase ≠ 1 → portRouted s.blk p = false → x.st ≠ 6 →
        (n < 7 → Effect (.marginTestDone p rx k errs fom) s (fun c => only c { y with st := 5, failed := true })) ∧
        (7 ≤ n → rx = false → Effect (.marginTestDone p rx k errs fom) s (fun c => only c { y with st := 2, locked := true, failed := false })) ∧
        (7 ≤ n → rx = true → (opGet s.blk p).rx ≠ none → Effect (.marginTestDone p rx k errs fom) s (fun c =>
          laneGet c p rx k = { y with st := 2, locked := true, failed := false } ∧
          (lpGet c p).ctl = (lpGet s.blk p).ctl ++ [((lpGet s.blk p).ctlNext, .spare true k, 0)])))) ∧
    (portRouted s.blk p = false → x.st = 4 → rx = false →
      ((lpGet s.blk p).st ≠ 2 → Effect (.ringSweepDone p rx k true) s (fun c => only c { x with st := 2, locked := true })) ∧
      ((lpGet s.blk p).st = 2 → Effect (.ringSweepDone p rx k true) s (fun c => laneGet c p rx k = { x with st := 2, locked := true } ∧
        (lpGet c p).ctl = (lpGet s.blk p).ctl ++ [((lpGet s.blk p).ctlNext, .spare false k, 0)]))) ∧
    (portRouted s.blk p = false → (opGet s.blk p).phase ≠ 1 → x.st ∈ [2, 4, 5, 7] → Effect (.ringSweepDone p rx k false) s (fun c =>
      only c { x with st := 5, dead := true, failed := true, testing := false, locked := false })) ∧
    (portRouted s.blk p = false → x.st = 1 → (∀ e ∈ (lpGet s.blk p).bounds, e.rx ≠ rx ∨ e.old ≠ k.val) →
      Effect (.ringSweepDone p rx k false) s (fun c => laneGet c p rx k = { x with dead := true, failed := true } ∧
        let n := (if rx then (lpGet s.blk p).rxFlits else (lpGet s.blk p).flits) + 64
        (lpGet c p).bounds = (lpGet s.blk p).bounds ++ [⟨rx, k, 18, n, some (lpGet s.blk p).ctlNext, some 5⟩] ∧
        (lpGet c p).ctl = (lpGet s.blk p).ctl ++ [((lpGet s.blk p).ctlNext, .boundary rx k 18 n 0, 0)])) ∧
    (x.st = 0 → exec (.ringSweepDone p rx k false) s = .next s) ∧ (x.st ≠ 4 → exec (.ringSweepDone p rx k true) s = .next s)) ∧
  (∀ (s : State) (p : Fin 32) (k : Fin 18) (fom : Int), let x := laneGet s.blk p true k
    let l := lpGet s.blk p
    let d := 50 * x.start + (fom - x.fs)
    let y := { x with fom := fom, live := min 255 (d / 10).toNat, below2 := 0, below1 := 0 }
    let lanes := fun (c : Block) => { c with opt := { c.opt with lanes := s.blk.opt.lanes } } = s.blk
    portRouted s.blk p = false →
    (l.rxSleep ≠ 0 ∨ (l.rxWoke ≠ 0 ∧ s.blk.time < l.rxWoke + 100000) ∨ (x.st ≠ 1 ∧ x.st ≠ 3) → exec (.liveMarginEstimate p k fom) s = .next s) ∧
    (l.rxSleep = 0 → (l.rxWoke = 0 ∨ l.rxWoke + 100000 ≤ s.blk.time) → x.st = 1 →
      (200 ≤ d → Effect (.liveMarginEstimate p k fom) s (fun c => laneGet c p true k = y ∧ lanes c)) ∧
      (d < 200 → x.below2 < 2 → x.below1 < 2 → Effect (.liveMarginEstimate p k fom) s (fun c => laneGet c p true k =
        { y with below2 := x.below2 + 1, below1 := if d < 100 then x.below1 + 1 else 0 } ∧ lanes c)) ∧
      (∀ f, d < 200 → x.below2 = 2 → freeSpare s.blk p true = some f → (opGet s.blk p).rx = none → (opGet s.blk p).wait = [] →
        Effect (.liveMarginEstimate p k fom) s (fun c => (laneGet c p true k).st = 1 ∧ (laneGet c p true f).st = 3 ∧
          (laneGet c p true f).pos = x.pos ∧ (opGet c p).rx = some ⟨k, f, x.pos, false⟩ ∧
          (lpGet c p).ctl = l.ctl ++ [(l.ctlNext, .migrate k f x.pos, 0)])) ∧
      (d < 100 → x.below1 = 2 → freeSpare s.blk p true = none → (opGet s.blk p).rx = none → (∀ e ∈ l.bounds, e.rx = false ∨ e.old ≠ k.val) →
        Effect (.liveMarginEstimate p k fom) s (fun c => (laneGet c p true k).st = 1 ∧
          (lpGet c p).bounds = l.bounds ++ [⟨true, k, 18, l.rxFlits + 64, some l.ctlNext, some 5⟩] ∧
          (lpGet c p).ctl = l.ctl ++ [(l.ctlNext, .boundary true k 18 (l.rxFlits + 64) 0, 0)])))) ∧
  (∀ (s : State) (n : Fin 8) (f : Fin 2), let g := 2 * n.val + f.val
    let shut := ∀ p ∈ fibrePorts g, portRouted s.blk p = false ∧ (opGet s.blk p).phase ≠ 1
    (∀ tones : List (Option Nat), shut → (∀ p ∈ fibrePorts g, ∀ rx k, k < 18 → toneOk k (tones.getD k none) = false →
        (laneGet s.blk p rx k).st ≠ 1 ∧ (laneGet s.blk p rx k).st ≠ 3) →
      let ok := fun (k : Nat) => toneOk k (tones.getD k none)
      let seen := fun (c : Block) => ∀ k < 18, (laserGet c g k) = { laserGet s.blk g k with pilot := ok k }
      Effect (.pilotToneWindow n f tones []) s (fun c => seen c ∧ (∀ p ∈ fibrePorts g, ∀ rx k, k < 18 → laneGet c p rx k =
          (let x := laneGet s.blk p rx k
           if ok k = true ∨ x.dead = true then x else { x with st := 0, testing := false, locked := false, result := none })) ∧
        { c with opt := { c.opt with lanes := s.blk.opt.lanes, lasers := s.blk.opt.lasers } } = s.blk) ∧
      (∀ i < 144, let p := 4 * n.val + i / 36
        let rx := decide (18 ≤ i % 36)
        let x := laneGet s.blk p rx (i % 18)
        (∀ k < 18, ok k = true) → x.st = 2 → x.dead = false → x.testing = false → portRouted s.blk p = false → (opGet s.blk p).phase ≠ 1 →
        ((lpGet s.blk p).rxSleep ≠ 2 ∧ (lpGet s.blk p).txSleep ≠ 2) →
        (x.mislocks = 0 → x.failed = false → Effect (.pilotToneWindow n f tones [i]) s (fun c => seen c ∧
          laneGet c p rx (i % 18) = { x with st := 4, mislocks := 1, locked := false } ∧
          ∃ r, c.reports = s.blk.reports ++ [r] ∧ r.source = portSource p 1 ∧ r.cls = corrected)) ∧
        (x.mislocks = 2 → Effect (.pilotToneWindow n f tones [i]) s (fun c => seen c ∧
          laneGet c p rx (i % 18) = { x with st := 5, mislocks := 3, dead := true, failed := true, locked := false } ∧
          c.reports.map (fun r => (r.source, r.cls)) = s.blk.reports.map (fun r => (r.source, r.cls)) ++
            [(portSource p 1, corrected), (portSource p 2, corrected)])))) ∧
    (∀ power : List (Option Int),
      ((∀ k < 18, ∃ v, power.getD k none = some v ∧ 820 < v) → Effect (.laserPowerMeasure n f power) s (fun c =>
        (∀ k < 18, laserGet c g k = { laserGet s.blk g k with power := power.getD k none, low := false }) ∧ g ∉ c.opt.lost ∧
        { c with opt := { c.opt with lasers := s.blk.opt.lasers, lost := s.blk.opt.lost } } = s.blk)) ∧
      (∀ k, k < 18 → (∀ v, power.getD k none = some v → v < 650) → (∀ j < 18, j ≠ k → ∃ u, power.getD j none = some u ∧ 820 < u) →
        (laserGet s.blk g k).low = false → tget none s.blk.opt.spares k = none → spareRefused s.blk k = false → bit (regGet s.blk 0x100800) 1 = false →
        Effect (.laserPowerMeasure n f power) s (fun c => (laserGet c g k).low = true ∧ (laserGet c g k).power = power.getD k none ∧
          tget none c.opt.spares k = some ⟨g, s.blk.time, false⟩ ∧
          ∃ r, c.reports = s.blk.reports ++ [r] ∧ r.source = engSource n 4 ∧ r.cls = corrected)) ∧
      ((∀ k < 18, power.getD k none = none) → g ∉ s.blk.opt.lost → (∀ p ∈ fibrePorts g, ∀ l ∈ portLinks s.blk p, (lpGet s.blk l).st = 0) →
        Effect (.laserPowerMeasure n f power) s (fun c => (∀ k < 18, (laserGet c g k).power = none ∧ (laserGet c g k).low = true) ∧
          c.opt.lost = s.blk.opt.lost ++ [g] ∧ c.reports.getLast?.map (fun r => (r.source, r.cls)) = some (engSource n (2 + f.val), contained))))) ∧
  (∀ (s : State) (k : Fin 18) (r : SpareReq), tget none s.blk.opt.spares k = some r →
    let late := r.since + 500000000 ≤ s.blk.time
    let said := s.blk.out ++ [.sideband 4 (BitVec.ofNat 8 k) 1]
    let thrice := s.blk.out ++ [.sideband 4 (BitVec.ofNat 8 k) 1, .sideband 4 (BitVec.ofNat 8 k) 2, .sideband 4 (BitVec.ofNat 8 k) 3]
    let refused := fun (c : Block) => tget none c.opt.spares k = none ∧ spareRefused c k = true ∧
      (∀ p < 32, (laneGet s.blk p false k).st = 7 → (laneGet c p false k).st = 5) ∧
      ∃ e, c.reports = s.blk.reports ++ [e] ∧ e.source = engSource (r.fibre / 2) 6 ∧ e.cls = corrected
    (r.granted = true →
      (∀ l, byteAt l 0 = 2 → Effect (.spareStatPoll k [some l]) s (fun c => c.out = said ∧ tget none c.opt.spares k = none ∧
        (laserGet c r.fibre k).active = true ∧ (∀ p < 32, (laneGet s.blk p false k).st = 7 → (laneGet c p false k).testing = true) ∧
        c.reports = s.blk.reports)) ∧
      (∀ l, byteAt l 0 = 3 ∨ (byteAt l 0 ≠ 2 ∧ late) → r.fibre < 16 → Effect (.spareStatPoll k [some l]) s (fun c => c.out = said ∧ refused c)) ∧
      (∀ l, byteAt l 0 ≠ 2 → byteAt l 0 ≠ 3 → ¬late → Effect (.spareStatPoll k [some l]) s (fun c => c = { s.blk with out := said })) ∧
      (¬late → Effect (.spareStatPoll k [none, none, none]) s (fun c => c.out = thrice ∧ regFld c 0x100800 1 1 = 1 ∧ c.opt = s.blk.opt ∧
        ∃ e, c.reports = s.blk.reports ++ [e] ∧ e.source = engSource (r.fibre / 2) 5 ∧ e.cls = corrected))) ∧
    (∀ answers, r.granted = false →
      (¬late → exec (.spareStatPoll k answers) s = .next s) ∧
      (late → r.fibre < 16 → Effect (.spareStatPoll k answers) s (fun c => c.out = s.blk.out ∧ refused c))) ∧
    (∀ l, r.granted = false → isReady s.blk 0 0 = true → byteAt l 0 ≠ 2 → byteAt l 0 ≠ 3 →
      Effect (.laserSidebandTransaction 3 (BitVec.ofNat 8 k) [some l]) s (fun c => tget none c.opt.spares k = some { r with granted := true } ∧
        c.out = s.blk.out ++ [.sideband 3 (BitVec.ofNat 8 k) 1] ∧ c.reports = s.blk.reports ∧
        regFld c (engBase (r.fibre / 2) + 0x704) 16 16 = min 65535 (regFld s.blk (engBase (r.fibre / 2) + 0x704) 16 16 + 1)))) ∧
  (∀ (s : State) (arg : Byte) (l : List Byte), isReady s.blk 0 0 = true →
    Effect (.laserSidebandTransaction 1 arg [some l]) s (fun c => c = { s.blk with out := s.blk.out ++ [.sideband 1 arg 1]
                                                                                   opt := { s.blk.opt with present := true } }) ∧
    Effect (.laserSidebandTransaction 1 arg [none, some l]) s (fun c => c = { s.blk with
      out := s.blk.out ++ [.sideband 1 arg 1, .sideband 1 arg 2], opt := { s.blk.opt with present := true } }) ∧
    Effect (.laserSidebandTransaction 1 arg [none, none, none]) s (fun c => c.out = s.blk.out ++ [.sideband 1 arg 1, .sideband 1 arg 2, .sideband 1 arg 3] ∧
      regFld c 0x100800 1 1 = 1 ∧ c.opt = s.blk.opt ∧
      ∃ r, c.reports = s.blk.reports ++ [r] ∧ r.source = engSource 0 5 ∧ r.cls = corrected)) ∧
  (∀ (s : State) (n : Fin 8) (i : Fin 576), let p := 4 * n.val + i.val / 144
    let k := i.val % 144 / 8
    let x := tget LoopS.init s.blk.opt.loops (576 * n.val + i.val)
    let only := fun (c : Block) (y : LoopS) => tget LoopS.init c.opt.loops (576 * n.val + i.val) = y ∧
      (∀ j, j ≠ 576 * n.val + i.val → tget LoopS.init c.opt.loops j = tget LoopS.init s.blk.opt.loops j) ∧
      { c with opt := { c.opt with loops := s.blk.opt.loops }, reports := s.blk.reports } = s.blk
    (∀ (d : BitVec 16) locked,
      (loopsHeld s.blk p (loopRx i) k = false → Effect (.loopUpdate n [⟨i, d, locked⟩]) s (fun c => c.reports = s.blk.reports ∧ only c
        (if (laneGet s.blk p (loopRx i) k).st = 0 then LoopS.init
         else ⟨d.toNat, locked, x.atLimit && (decide (d.toNat * 20 < 65535) || decide (65535 * 19 < d.toNat * 20)), x.sweep && !locked⟩))) ∧
      (portRouted s.blk p = false → (laneGet s.blk p (loopRx i) k).st = 1 → loopRx i = true → (lpGet s.blk p).rxSleep = 1 →
        exec (.loopUpdate n [⟨i, d, locked⟩]) s = .next s)) ∧
    ((laneGet s.blk p (loopRx i) k).st ≠ 1 → Effect (.loopLimit n i) s (fun c => only c { x with atLimit := true } ∧
      ∃ r, c.reports = s.blk.reports ++ [r] ∧ r.source = portSource p 4 ∧ r.cls = corrected)) ∧
    ((laneGet s.blk p false k).st = 1 → loopRx i = false → portRouted s.blk p = false → Effect (.loopLimit n i) s (fun c =>
      (tget LoopS.init c.opt.loops (576 * n.val + i.val)).atLimit = true ∧ c.opt.lanes = s.blk.opt.lanes ∧
      (lpGet c p).ctl = (lpGet s.blk p).ctl ++ [((lpGet s.blk p).ctlNext, .away k false, 0)]))) ∧
  (∀ (s : State) (p : Fin 32) (m : MigrFrom) (spare : Fin 18), let x := lpGet s.blk p
    (x.st ≠ 2 ∨ (laneGet s.blk p false spare).st ≠ 2 → exec (.migrationRequest p m spare) s = .next s) ∧
    (x.st = 2 → (laneGet s.blk p false spare).st = 2 → (opGet s.blk p).tx = none →
      (∀ v, (laserGet s.blk (fibreOf p) m.old).power = some v → 800 ≤ v) → ((laserGet s.blk (fibreOf p) m.old).power = none →
        (laserGet s.blk (fibreOf p) m.old).low = false) → Effect (.migrationRequest p m spare) s (fun c =>
        laneGet c p false spare = { laneGet s.blk p false spare with st := 3, pos := m.pos } ∧ (lpGet c p).txSleep = 0 ∧
        (∀ j < 18, j ≠ spare.val → laneGet c p false j = laneGet s.blk p false j) ∧
        opGet c p = { opGet s.blk p with tx := some ⟨m.old, spare, m.pos, false⟩ } ∧ c.out.getLast? = some (.trainBurst p spare) ∧
        (∀ j, j ≠ p.val → lpGet c j = lpGet s.blk j) ∧
        { c with lnk := s.blk.lnk, out := s.blk.out, opt := { c.opt with lanes := s.blk.opt.lanes, ports := s.blk.opt.ports } } = s.blk))) ∧
  (∀ (s : State) (p : Fin 32) (k : Fin 18) (errs : Nat) (fom : Int) (m : Migr), (opGet s.blk p).rx = some m → m.spare = k.val → m.passed = false →
    let x := laneGet s.blk p true k
    let l := lpGet s.blk p
    let d := 50 * x.start + (fom - x.fs)
    let live := min 255 (d / 10).toNat
    let n := l.rxFlits + 64
    (errs ≤ 251 → 300 ≤ d → Effect (.spareTrainingDone p k errs fom) s (fun c => (opGet c p).rx = some { m with passed := true } ∧
      laneGet c p true k = { x with fom := fom, live := live } ∧ (lpGet c p).bounds = l.bounds ++ [⟨true, m.old, k, n, some l.ctlNext, none⟩] ∧
      (lpGet c p).ctl = l.ctl ++ [(l.ctlNext, .boundary true m.old k n live, 0)])) ∧
    (251 < errs ∨ d < 300 → (∀ j < 18, j ≠ k.val → (laneGet s.blk p true j).st ≠ 2) → Effect (.spareTrainingDone p k errs fom) s (fun c =>
      (opGet c p).rx = none ∧ (laneGet c p true k).st = 5 ∧ (laneGet c p true k).dead = true ∧ (laneGet c p true k).failed = true ∧
      (∀ j < 18, j ≠ k.val → laneGet c p true j = laneGet s.blk p true j) ∧ c.reports = s.blk.reports))) ∧
  (∀ (s : State) (p : Fin 32) (rx : Bool) (e : Bound), let x := lpGet s.blk p
    let n := if rx then x.rxFlits else x.flits
    let turned := fun (c : Block) => (lpGet c p).bounds = x.bounds.eraseP (fun e => e.rx = rx) ∧
      (if rx then (lpGet c p).rxEpoch = (x.rxEpoch + 1) % 256 ∧ (lpGet c p).rxFlits = 0 else (lpGet c p).txEpoch = (x.txEpoch + 1) % 256 ∧ (lpGet c p).flits = 0)
    x.bounds.find? (fun e => e.rx = rx) = some e →
    (n < e.count → exec (.flitBoundarySwitch p rx) s = .next s) ∧
    (e.count ≤ n → (∀ m ∈ x.ctl, some m.1 ≠ e.seq) → e.old < 18 → (laneGet s.blk p rx e.old).st = 1 → (rx = true → ∀ j < 18, j ≠ e.spare →
        (laneGet s.blk p true j).st ≠ 2) →
      (e.spare < 18 → e.old ≠ e.spare → e.st = none → (opGet s.blk p).cal = none → (opGet s.blk p).farCal ≠ some e.old →
        tget none s.blk.opt.spares e.old = none → e.old ∉ (opGet s.blk p).retrain → Effect (.flitBoundarySwitch p rx) s (fun c => turned c ∧
          laneGet c p rx e.old = { laneGet s.blk p rx e.old with st := 5, failed := true } ∧
          laneGet c p rx e.spare = { laneGet s.blk p rx e.spare with st := 1, locked := true, below2 := 0, below1 := 0 } ∧
          (if rx then (opGet c p).rx = none else (opGet c p).tx = none) ∧ (lpGet c p).replay = x.replay ∧ c.out = s.blk.out ∧
          ∃ r, c.reports = s.blk.reports ++ [r] ∧ r.source = portSource p 0 ∧ r.cls = corrected)) ∧
      (e.spare = 18 → portRouted s.blk p = false → (rx = true → ∃ j < 18, j ≠ e.old ∧ (laneGet s.blk p true j).st = 1) →
        (∀ r ∈ s.blk.fab.resv, r.port ≠ p.val) → Effect (.flitBoundarySwitch p rx) s (fun c => turned c ∧ let st := e.st.getD 5
          laneGet c p rx e.old = { laneGet s.blk p rx e.old with st := st, locked := false, failed := (laneGet s.blk p rx e.old).failed || decide (st = 5) } ∧
          (∀ j < 18, j ≠ e.old → laneGet c p rx j = laneGet s.blk p rx j))))) ∧
  (∀ (s : State) (p : Fin 32) (k : Fin 18), let x := laneGet s.blk p true k
    (x.st ≠ 1 → x.st ≠ 3 → Effect (.lossOfLock p k) s (fun c => laneGet c p true k = { x with locked := false } ∧
      { c with opt := { c.opt with lanes := s.blk.opt.lanes } } = s.blk)) ∧
    (x.st = 1 → portRouted s.blk p = false → (lpGet s.blk p).st = 2 → (∃ j < 18, j ≠ k.val ∧ (laneGet s.blk p true j).st = 1) →
      (∀ j < 18, (laneGet s.blk p true j).st ≠ 2) → (∀ e ∈ s.blk.fab.resv, e.port ≠ p.val) → Effect (.lossOfLock p k) s (fun c =>
        laneGet c p true k = { x with st := 5, locked := false, failed := true } ∧ (∀ j < 18, j ≠ k.val → laneGet c p true j = laneGet s.blk p true j) ∧
        k.val ∉ (lpGet c p).rxMap ∧ (lpGet c p).rxEpoch = ((lpGet s.blk p).rxEpoch + 1) % 256 ∧ (lpGet c p).rxFlits = 0 ∧
        (lpGet c p).ctl = (lpGet s.blk p).ctl ++ [((lpGet s.blk p).ctlNext, .withdraw k, 0)]))) ∧
  (∀ (s : State) (q : Fin 1024) (d : Line), AtHead s.blk q d 0x20 → let p := fld d 64 5
    let k := fld d 72 8
    portRouted s.blk p = false →
    ((lpGet s.blk p).st ≠ 2 → Effect (.calRequest q) s (fun c => DescDone s.blk c q d 0x0104 0 0 [] ∧ c.opt = s.blk.opt)) ∧
    ((lpGet s.blk p).st = 2 → ((opGet s.blk p).cal ≠ none ∨ calSpare s.blk p false k = false ∨
      calSpare s.blk p true k = false) → Effect (.calRequest q) s (fun c => DescDone s.blk c q d 0x0301 0 0 [] ∧ c.opt = s.blk.opt)) ∧
    ((lpGet s.blk p).st = 2 → (opGet s.blk p).cal = none → calSpare s.blk p false k = true → calSpare s.blk p true k = true →
      (laneGet s.blk p false k).st ≠ 3 → (laneGet s.blk p true k).st ≠ 3 → Effect (.calRequest q) s (fun c => DescOpen s.blk c q ∧
        (opGet c p).cal = some ⟨q, dCookie d, k, s.blk.time, false⟩ ∧ (lpGet c p).txSleep = 0 ∧ (∃ i, (i, CtlMsg.away k true, 0) ∈ (lpGet c p).ctl) ∧
        (∀ rx, (laneGet c p rx k).st = (if (laneGet s.blk p rx k).st = 1 then 1 else 6)) ∧
        (∀ f, (laneGet s.blk p true k).st = 1 → freeSpare s.blk p true = some f → (opGet s.blk p).rx = none → (opGet s.blk p).wait = [] →
          (laneGet c p true f).st = 3 ∧ (opGet c p).rx = some ⟨k, f, (laneGet s.blk p true k).pos, false⟩)))) ∧
  (∀ (s : State) (p : Fin 32) (fail : CalFail) (tx rx : MarginRun) (x : Cal), (opGet s.blk p).cal = some x → x.wave < 18 →
    (laneGet s.blk p false x.wave).st = 1 ∨ (laneGet s.blk p true x.wave).st = 1 → exec (.calDone p fail tx rx) s = .next s) ∧
  (∀ (s : State) (p : Fin 32) (fail : CalFail) (tx rx : MarginRun) (x : Cal), (opGet s.blk p).cal = some x → x.wave < 18 →
    (∀ rx, (laneGet s.blk p rx x.wave).st = 6 ∧ (laneGet s.blk p rx x.wave).dead = false) → CanComplete s.blk x.pair → x.since ≤ s.blk.time →
    missingPos s.blk p = none → (opGet s.blk p).wait = [] →
    let t := ((tx.errs.take 21).takeWhile (fun e => e ≤ 4026)).length
    let r := ((rx.errs.take 21).takeWhile (fun e => e ≤ 4026)).length
    let result := if fail.tx = true ∨ fail.rx = true then 2 else if 7 ≤ t ∧ 7 ≤ r then 0 else 1
    Effect (.calDone p fail tx rx) s (fun c => (opGet c p).cal = none ∧
      (laneGet c p false x.wave).st = (if fail.tx = false ∧ 7 ≤ t then 2 else 5) ∧
      (laneGet c p true x.wave).st = (if fail.rx = false ∧ 7 ≤ r then 2 else 5) ∧
      (laneGet c p true x.wave).start = r - 1 ∧ (laneGet c p true x.wave).fs = rx.fom0 ∧
      ∃ us : Nat, ((s.blk.time - x.since : Int) / 1000 ≤ us ∧ us ≤ (s.blk.time - x.since : Int) / 1000 + 1) ∧
        WorkDone s.blk c x.pair x.cookie 0 0
          (result + 2 ^ 8 * (t - 1) + 2 ^ 16 * (r - 1) + 2 ^ 24 * x.migrated.toNat + 2 ^ 32 * (us % 2 ^ 32)))) ∧
  (∀ (s : State) (n : Fin 8) (w : Word), actServed s.blk = true →
    (bit w 1 = false → bit w 2 = true → Effect (.calSnapshot n w) s (fun c => n.val ∈ c.opt.held ∧
      (∀ i < 576, tget 0 c.opt.snap (576 * n.val + i) = (tget LoopS.init s.blk.opt.loops (576 * n.val + i)).drive) ∧
      { c with regs := s.blk.regs, opt := { c.opt with held := s.blk.opt.held, snap := s.blk.opt.snap } } = s.blk)) ∧
    (bit w 2 = false → bit w 1 = true → fld w 24 8 = 0x4F → (∀ p ∈ engPorts n, ∀ l ∈ portLinks s.blk p, (lpGet s.blk l).st = 0) →
      Memory.wf s.blk = true →
      Effect (.oeReset n w) s (fun c => engGet c n = { engGet s.blk n with fenced := true, resetting := true } ∧ regFld c (engBase n) 0 1 = fld w 0 1 ∧
        n.val ∉ c.pwr.hot ∧ n.val ∉ c.flt.held ∧ (∀ m, m ≠ n.val → engGet c m = engGet s.blk m) ∧
        (∀ p ∈ engPorts n, ∀ rx k, k < 18 → portRouted s.blk p = false → laneGet c p rx k =
          { laneGet s.blk p rx k with dead := (laneGet s.blk p rx k).dead || (laneGet s.blk p rx k).failed }) ∧
        c.lnk = s.blk.lnk ∧ c.pads = s.blk.pads ∧ c.die = s.blk.die ∧ c.hbm = s.blk.hbm ∧ c.host = s.blk.host ∧ c.out = s.blk.out)) ∧
    (∀ p ∈ engPorts n, (engGet s.blk n).resetting = true → pairPort s.blk = none → bit (regGet s.blk (engBase n)) 0 = false →
      (∀ p ∈ engPorts n, (lpGet s.blk p).st = 0) → Effect (.portStart (Fin.ofNat 32 p)) s (fun c => (engGet c n).on = true ∧ (engGet c n).resetting = false ∧
        (engGet c n).fenced = !(engGet c n).trained ∧ portRouted c p = false ∧ (∀ p ∈ engPorts n, (lpGet c p).st = if canStart c p then 1 else 0) ∧
        (∀ m, m ≠ n.val → engGet c m = engGet s.blk m) ∧ c.out = s.blk.out)) ∧
    (fld w 24 8 ≠ 0x4F → bit w 2 = false → Effect (.oeReset n w) s (fun c => regFld c (engBase n) 0 1 = fld w 0 1 ∧
      { c with regs := s.blk.regs } = s.blk)))

/-! ### The Guica link (R341 to R365) -/

/-- A flit that passes its checks gives its credit, acknowledgement, data and control messages, and one that does not is counted; the
timers resend, acknowledge, return credit and repeat; training brings a port up; each down rule takes it down with its cause; sleep,
adaptation and the die-to-die parity act as stated. -/
def Obligations.GuicaLink : Prop :=
  (∀ (s : State) (l : LinkNo) (f : Flit), let x := lpGet s.blk l
    let y := { x with rxFlits := x.rxFlits + 1, rxSleep := 0, rxWoke := if x.rxSleep = 0 then x.rxWoke else s.blk.time }
    let z := takeCredit f.header y
    let own := l.val < 32 ∧ portRouted s.blk l = false
    let only := fun (c : Block) (v : LPort) => lpGet c l = v ∧ (∀ j, j ≠ l.val → lpGet c j = lpGet s.blk j) ∧ { c with lnk := s.blk.lnk } = s.blk
    let seq := fld f.header 0 12
    let ack := fld f.header 16 12
    let credit := fld f.header 29 10
    (x.st = 0 → exec (.flitReceive l f) s = .next s) ∧
    (x.st ≠ 0 → (f.payload.length ≠ 240 ∨ crc64 (bytesOf 8 f.header.toNat ++ f.payload) ≠ f.crc ∨ fld f.header 40 8 ≠ x.rxEpoch ∨
      fld f.header 13 2 = 3) → Effect (.flitReceive l f) s (fun c => let o := linkBase (portOf l) + 0x24
        regFld c o 0 32 = min (2 ^ 32 - 1) (regFld s.blk o 0 32 + 1) ∧ (∀ k, k ≠ o → regGet c k = regGet s.blk k) ∧ { c with regs := s.blk.regs } = s.blk)) ∧
    (flitOk x f = true → x.st = 2 → x.txq = [] →
      (bit f.header 28 = false → z = { y with credReq := y.credReq + (credit + 1024 - y.seenReq) % 1024, seenReq := credit }) ∧
      (bit f.header 28 = true → z = { y with credRsp := y.credRsp + (credit + 1024 - y.seenRsp) % 1024, seenRsp := credit }) ∧
      (fld f.header 13 2 = 0 → bit f.header 15 = false → Effect (.flitReceive l f) s (fun c => only c z)) ∧
      (∀ left, fld f.header 13 2 = 0 → bit f.header 15 = true → left = (x.txNext + 4095 - ack) % 4096 →
        (left < x.replay.length → Effect (.flitReceive l f) s (fun c =>
          only c { z with replay := x.replay.drop (x.replay.length - left), expiries := 0 })) ∧
        (x.replay.length ≤ left → left < x.sent → Effect (.flitReceive l f) s (fun c => only c z)) ∧
        (x.replay.length ≤ left → x.sent ≤ left → own → Effect (.flitReceive l f) s (fun c => PortDown c l 6))) ∧
      (fld f.header 13 2 = 1 → bit f.header 15 = false → seq = x.rxNext →
        (512 ≤ (x.buf (bit f.header 12)).length → own → Effect (.flitReceive l f) s (fun c => PortDown c l 6)) ∧
        (bit f.header 12 = false → x.owedReq < 31 → x.owedRsp < 32 →
          let w := { z with rxNext := (x.rxNext + 1) % 4096, rxAny := true, owed := x.owed + 1, usedReq := x.usedReq + 1, owedReq := x.owedReq + 1 }
          (x.bufReq = [] → x.partReq = [] → leAt f.payload 0 2 < 4096 →
            (x.coalesced = true → x.owed < 63 → Effect (.flitReceive l f) s (fun c => only c w)) ∧
            (x.coalesced = false → x.txSleep = 0 → Effect (.flitReceive l f) s (fun c => (lpGet c l).rxNext = (x.rxNext + 1) % 4096 ∧
              (lpGet c l).owed = 0 ∧ ∃ g u, c.out = s.blk.out ++ [.flit l g u] ∧ fld g.header 13 2 = 0 ∧ bit g.header 15 = true ∧
                fld g.header 16 12 = seq))) ∧
          (∀ k rest, x.bufReq = [] → cutPackets 241 (x.partReq ++ f.payload) = ([k], rest) → carries (fpGet s.blk l).st k.type = true →
            k.type ≠ 7 → k.type ≠ 8 → k.ok = true → x.coalesced = true → x.owed < 63 → Effect (.flitReceive l f) s (fun c =>
              c.fab = { s.blk.fab with rxq := s.blk.fab.rxq ++ [(l.val, k)] } ∧ lpGet c l = { w with partReq := rest } ∧
              { c with lnk := s.blk.lnk, fab := s.blk.fab } = s.blk)) ∧
          (∀ d r, x.bufReq = d :: r → r.length < 511 → canLeave s.blk l false d = false → x.coalesced = true → x.owed < 63 →
            Effect (.flitReceive l f) s (fun c => only c { z with
              rxNext := (x.rxNext + 1) % 4096, rxAny := true, owed := x.owed + 1, bufReq := x.bufReq ++ [f.payload] })))) ∧
      (∀ ahead, fld f.header 13 2 = 1 → bit f.header 15 = false → ahead = (seq + 4096 - x.rxNext) % 4096 → ahead ≠ 0 →
        (ahead < 2049 → Effect (.flitReceive l f) s (fun c => only c z)) ∧
        (2049 ≤ ahead → x.txSleep = 0 → x.rxAny = true → Effect (.flitReceive l f) s (fun c => (lpGet c l).rxNext = x.rxNext ∧
          ∃ g u, c.out = s.blk.out ++ [.flit l g u] ∧ fld g.header 13 2 = 0 ∧ bit g.header 15 = true ∧
            fld g.header 16 12 = (x.rxNext + 4095) % 4096))) ∧
      (∀ (q : Byte) (m : CtlMsg), fld f.header 13 2 = 2 → bit f.header 15 = false → f.echoes = [] → f.ctl = [(q, m)] → q.toNat ∉ x.ctlSeen →
        let told := fun (P : Block → Prop) => (x.txSleep = 0 → x.echoes = [] → x.txMap ≠ [] → Effect (.flitReceive l f) s (fun c => P c ∧
            (lpGet c l).ctlSeen = (q.toNat :: x.ctlSeen).take 64 ∧ (lpGet c l).echoes = [] ∧
            ∃ g u, c.out = s.blk.out ++ [.flit l g u] ∧ fld g.header 13 2 = 2 ∧ g.ctl = [] ∧ g.echoes = [q])) ∧
          (x.txSleep ≠ 0 → x.txMap ≠ [] → Effect (.flitReceive l f) s (fun c => P c ∧ (lpGet c l).echoes = x.echoes ++ [q] ∧ c.out = s.blk.out))
        (∀ deep, m = .sleep deep → told (fun c => (lpGet c l).rxSleep = 1 ∧ (lpGet c l).farDeep = deep ∧ (lpGet c l).rxSince = s.blk.time)) ∧
        (∀ e, m = .params e → told (fun c => (lpGet c l).far = some e)) ∧
        (∀ old spare n live, m = .boundary true old spare n live → own → spare < 18 → told (fun c =>
          (lpGet c l).bounds = x.bounds.filter (fun e => !(decide (e.rx = false) && decide (e.old = old))) ++ [⟨false, old, spare, n, none, none⟩] ∧
          laneGet c l false spare = { laneGet s.blk l false spare with live := live } ∧
          (old < 18 → (laneGet s.blk l false old).st = 1 → (lpGet c l).twin = some (old, spare)))) ∧
        (m = .down → own → Effect (.flitReceive l f) s (fun c => PortDown c l 4))) ∧
      (∀ q : Byte, fld f.header 13 2 = 2 → bit f.header 15 = false → f.echoes = [q] → f.ctl = [] →
        let v := { z with ctl := x.ctl.filter (fun e => decide (e.1 ≠ q.toNat)), sleepSeq := if x.sleepSeq = some q.toNat then none else x.sleepSeq }
        (x.sleepSeq ≠ some q.toNat ∨ x.replay ≠ [] ∨ x.echoes ≠ [] ∨ 0 < x.owedReq ∨ 0 < x.owedRsp ∨ v.ctl ≠ [] →
          Effect (.flitReceive l f) s (fun c => only c v)) ∧
        (x.sleepSeq = some q.toNat → x.replay = [] → x.echoes = [] → x.owedReq = 0 → x.owedRsp = 0 → v.ctl = [] → x.owed = 0 → x.dup = false →
          x.txSleep = 0 → bit (regGet s.blk (linkBase (portOf l))) 3 = true → Effect (.flitReceive l f) s (fun c => only c { v with txSleep := 1, txSince := s.blk.time }))))) ∧
  (∀ (s : State) (l : LinkNo), let x := lpGet s.blk l
    let own := l.val < 32 ∧ portRouted s.blk l = false
    let rest := fun (c : Block) => (∀ j, j ≠ l.val → lpGet c j = lpGet s.blk j) ∧ c.fab = s.blk.fab ∧ c.opt = s.blk.opt ∧ c.reports = s.blk.reports
    (x.st ≠ 2 ∨ x.replay = [] → exec (.replayTimeout l) s = .next s) ∧
    (x.st = 2 → x.replay ≠ [] → x.expiries < 7 → Effect (.replayTimeout l) s (fun c => rest c ∧ (lpGet c l).expiries = x.expiries + 1 ∧
      (lpGet c l).replay = x.replay ∧ s.blk.time ∈ (lpGet c l).replays ∧ let o := linkBase (portOf l) + 0x20
      regFld c o 0 32 = min (2 ^ 32 - 1) (regFld s.blk o 0 32 + 1) ∧
      ∃ fs : List (Flit × List (Nat × List Int)), c.out = s.blk.out ++ fs.map (fun e => Out.flit l e.1 e.2) ∧
        fs.map (fun e => flitHead e.1) = x.replay.map (fun e => (1, e.1 % 4096, e.2.1, pad240 e.2.2)))) ∧
    (x.st = 2 → x.replay ≠ [] → 7 ≤ x.expiries → own → Effect (.replayTimeout l) s (fun c => PortDown c l 3)) ∧
    (x.st = 2 → x.coalesced = true → 0 < x.owed → x.rxAny = true →
      (x.txSleep = 0 → Effect (.ackCoalesceTimeout l) s (fun c => rest c ∧ (lpGet c l).owed = 0 ∧
        ∃ g u, c.out = s.blk.out ++ [.flit l g u] ∧ bit g.header 15 = true ∧ fld g.header 16 12 = (x.rxNext + 4095) % 4096)) ∧
      (x.txSleep ≠ 0 → Effect (.ackCoalesceTimeout l) s (fun c => rest c ∧ lpGet c l = { x with dup := true } ∧ c.out = s.blk.out))) ∧
    (x.st ≠ 2 ∨ x.coalesced = false ∨ x.owed = 0 → exec (.ackCoalesceTimeout l) s = .next s) ∧
    (∀ vc, (x.st = 2 → x.txSleep = 0 → 0 < (if vc then x.owedRsp else x.owedReq) → Effect (.creditReturnTimeout l vc) s (fun c => rest c ∧
      (if vc then (lpGet c l).owedRsp else (lpGet c l).owedReq) = 0 ∧ ∃ (fs : List (Flit × List (Nat × List Int))) (g : Flit) (u : List (Nat × List Int)),
        c.out = s.blk.out ++ fs.map (fun e => Out.flit l e.1 e.2) ++ [.flit l g u] ∧ fs.length = (if x.credVc = vc then 0 else 1) ∧
        bit g.header 28 = vc ∧ fld g.header 29 10 = (if vc then x.usedRsp else x.usedReq) % 1024)) ∧
      ((if vc then x.owedRsp else x.owedReq) = 0 → exec (.creditReturnTimeout l vc) s = .next s)) ∧
    (∀ (q : Byte) (m : CtlMsg) (n : Nat), x.ctl.find? (fun e => e.1 = q.toNat) = some (q.toNat, m, n) → x.st ≠ 0 →
      (n < 99 → (∀ e ∈ x.bounds, e.seq = some q.toNat → (if e.rx then x.rxFlits else x.flits) + 16 ≤ e.count) → x.txSleep = 0 →
        Effect (.controlMessageRepeat l q) s (fun c => rest c ∧
          (lpGet c l).ctl = x.ctl.map (fun e => if e.1 = q.toNat then (e.1, e.2.1, n + 1) else e) ∧
          ∃ g u, c.out = s.blk.out ++ [.flit l g u] ∧ fld g.header 13 2 = 2 ∧ g.ctl = [(q, m)])) ∧
      (∀ e, n < 99 → x.bounds = [e] → e.seq = some q.toNat → e.spare = 18 → e.count < (if e.rx then x.rxFlits else x.flits) + 16 →
        Effect (.controlMessageRepeat l q) s (fun c => let k := (if e.rx then x.rxFlits else x.flits) + 64
          (lpGet c l).bounds = [{ e with count := k, seq := some x.ctlNext }] ∧
          (lpGet c l).ctl = x.ctl.filter (fun e => decide (e.1 ≠ q.toNat)) ++ [(x.ctlNext, .boundary e.rx e.old 18 k 0, 0)])) ∧
      (99 ≤ n → own → Effect (.controlMessageRepeat l q) s (fun c => PortDown c l 5)))) ∧
  (∀ (s : State) (l : LinkNo) (rtts : List Nat) (far : LinkParams), let x := lpGet s.blk l
    let own := bit (regGet s.blk (linkBase l)) 0
    let rule := regFld s.blk (linkBase l) 1 2
    let rtt := (rtts.foldl max 0 + 9) / 10 * 10
    let w := x.txMap.length
    l.val < 32 → portRouted s.blk l = false →
    (x.st ≠ 1 ∨ (opGet s.blk l).phase ≠ 2 → exec (.linkTraining l rtts far) s = .next s ∧ exec (.trainingTimeout l) s = .next s) ∧
    (x.st = 1 → (opGet s.blk l).phase = 2 → Effect (.trainingTimeout l) s (fun c => PortDown c l 7)) ∧
    (x.st = 1 → (opGet s.blk l).phase = 2 → Effect (.linkTraining l rtts far) s (fun c => let y := lpGet c l
      let both := own || (x.far.getD far).coalesced
      let trip := rtt * w * 100 + (if both then 64 else 1) * 2048
      y.st = 2 ∧ y.coalesced = both ∧ y.mismatch = decide (own ≠ (x.far.getD far).coalesced) ∧ y.rule = rule ∧ y.rateRule = decide (rule = 2) ∧
      y.rtt = rtt ∧ y.txEpoch = 0 ∧ y.rxEpoch = 0 ∧ y.rxNext = 0 ∧ y.credRsp = 512 ∧ y.txMap = x.txMap ∧
      y.windowLimited = (decide (2047 * 2048 < trip) && decide (0 < w)) ∧
      y.txCap = (if 2047 * 2048 < trip then 125 * w * (2047 * 2048) / trip else 125 * w) ∧
      (∀ k ∈ x.rxMap, k < 18 → (laneGet c l true k).locked = true) ∧
      (∃ g u, Out.flit l g u ∈ c.out ∧ (BitVec.ofNat 8 x.ctlNext, CtlMsg.params ⟨own, Fin.ofNat 4 rule⟩) ∈ g.ctl) ∧
      fpGet c l = { FPort.init with st := 1, planeB := bit (regGet s.blk 0x300000) 2 } ∧ isReady c 5 l = true ∧ (opGet c l).phase = 0 ∧
      ∃ h, Out.packet l (.hello h) ∈ c.out))) ∧
  (∀ (s : State) (p : Fin 32) (w : Word), let x := lpGet s.blk p
    let l : LinkNo := p.castLE (by decide)
    portRouted s.blk p = false →
    (x.st ≠ 0 → Effect (.linkDown l) s (fun c => ∃ cause, PortDown c p cause)) ∧
    (x.st = 0 → exec (.linkDown l) s = .next s ∧ exec (.portDownWrite p w) s = .next s) ∧
    (x.st ≠ 0 → actServed s.blk = true → bit w 0 = true → fld w 24 8 = 0x4C → Effect (.portDownWrite p w) s (fun c => PortDown c p 4)) ∧
    (fld w 24 8 ≠ 0x4C ∨ bit w 0 = false → exec (.portDownWrite p w) s = .next s) ∧
    (x.st = 2 → x.rateRule = false → x.rxSleep = 0 →
      let held := ((inService s.blk p true).filter (fun k => (laneGet s.blk p true k).locked)).length
      (held < 8 → Effect (.lockRuleHoldExpiry p) s (fun c => PortDown c p 1)) ∧ (8 ≤ held → exec (.lockRuleHoldExpiry p) s = .next s)) ∧
    (∀ codewords bad corr start, let exceeded := codewords < bad * 100000 ∨
        64 < (x.replays.filter (fun t => decide (start ≤ t) && decide (t < start + 1000000))).length
      (x.st = 2 → x.rateRule = true → exceeded → Effect (.errorRateWindow l codewords bad corr start) s (fun c => PortDown c p 2)) ∧
      (x.rateRule = false ∨ ¬exceeded → Effect (.errorRateWindow l codewords bad corr start) s (fun c =>
        regFld c (linkBase p + 0x28) 0 32 = min (2 ^ 32 - 1) (regFld s.blk (linkBase p + 0x28) 0 32 + bad) ∧
        (regGet c (linkBase p + 0x34)).toNat + 2 ^ 32 * (regGet c (linkBase p + 0x38)).toNat =
          min (2 ^ 64 - 1) ((regGet s.blk (linkBase p + 0x34)).toNat + 2 ^ 32 * (regGet s.blk (linkBase p + 0x38)).toNat + corr) ∧
        { c with regs := s.blk.regs } = s.blk)))) ∧
  (∀ (s : State) (l : LinkNo), let x := lpGet s.blk l
    let base := linkBase (portOf l)
    let only := fun (c : Block) (v : LPort) => lpGet c l = v ∧ (∀ j, j ≠ l.val → lpGet c j = lpGet s.blk j) ∧ { c with lnk := s.blk.lnk } = s.blk
    let deep := bit (regGet s.blk base) 4 = true ∧ (∀ e ∈ s.blk.fab.resv, e.port ≠ l.val ∧ e.inp ≠ l.val) ∧ pairPort s.blk ≠ some l.val
    let due := ∃ d, x.farDeep = some d ∧ x.rxSince + 1000 * d ≤ s.blk.time
    (sleepReady s.blk l = true → x.busyAt + 100 * regFld s.blk base 8 8 ≤ s.blk.time → bit (regGet s.blk base) 4 = false ∨ deep → Effect (.lightSleepEntry l) s (fun c =>
      let m := CtlMsg.sleep (if bit (regGet s.blk base) 4 then some (regFld s.blk base 16 16) else none)
      (lpGet c l).sleepSeq = some x.ctlNext ∧ (lpGet c l).txSleep = 0 ∧ (lpGet c l).ctl = [(x.ctlNext, m, 0)] ∧
      ∃ g u, c.out = s.blk.out ++ [.flit l g u] ∧ g.ctl = [(BitVec.ofNat 8 x.ctlNext, m)])) ∧
    (sleepReady s.blk l = false ∨ s.blk.time < x.busyAt + 100 * regFld s.blk base 8 8 → exec (.lightSleepEntry l) s = .next s) ∧
    (x.txSleep = 1 → deep → x.txSince + 1000 * regFld s.blk base 16 16 ≤ s.blk.time → x.rxSleep ≠ 1 → Effect (.deepSleepEntry l) s (fun c => only c { x with txSleep := 2 })) ∧
    (x.txSleep ≠ 1 → x.rxSleep = 1 → due → Effect (.deepSleepEntry l) s (fun c => only c { x with rxSleep := 2 })) ∧
    (x.txSleep ≠ 1 ∨ bit (regGet s.blk base) 4 = false ∨ s.blk.time < x.txSince + 1000 * regFld s.blk base 16 16 → x.rxSleep ≠ 1 ∨ ¬due → exec (.deepSleepEntry l) s = .next s) ∧
    (x.txSleep ≠ 0 → x.txq ≠ [] ∨ x.ctl ≠ [] ∨ x.echoes ≠ [] ∨ x.dup = true ∨ 0 < x.owedReq → Effect (.sleepWake l) s (fun c => (lpGet c l).txSleep = 0 ∧
      (lpGet c l).ctl = x.ctl ++ [(x.ctlNext, .wake, 0)] ∧ (∃ more, c.out = s.blk.out ++ .wakeBurst l (decide (x.txSleep = 2)) :: more) ∧
      (∀ j, j ≠ l.val → lpGet c j = lpGet s.blk j) ∧ c.fab = s.blk.fab)) ∧
    (x.txSleep = 0 → exec (.sleepWake l) s = .next s) ∧
    (x.rxSleep = 2 ∨ x.txSleep = 2 → Effect (.deepSleepRetrack l) s (fun c => only c { x with trackEnd := s.blk.time + 100000 })) ∧
    (x.rxSleep ≠ 2 → x.txSleep ≠ 2 → exec (.deepSleepRetrack l) s = .next s)) ∧
  (∀ (s : State) (p : Fin 32) (k : Fin 18) (before after : Int), let x := lpGet s.blk p
    let l := laneGet s.blk p true k
    portRouted s.blk p = false →
    (x.rxSleep = 0 → x.rxWoke ≤ s.blk.time → l.st = 1 ∨ l.st = 3 →
      (before ≤ after + 5 → Effect (.adaptationStep p k before after) s (fun c => laneGet c p true k = { l with fom := after } ∧
        { c with opt := { c.opt with lanes := s.blk.opt.lanes } } = s.blk)) ∧
      (after + 5 < before → Effect (.adaptationStep p k before after) s (fun c => laneGet c p true k = { l with fom := before } ∧
        regFld c (linkBase p + 0x30) 0 32 = min (2 ^ 32 - 1) (regFld s.blk (linkBase p + 0x30) 0 32 + 1) ∧
        { c with regs := s.blk.regs, opt := { c.opt with lanes := s.blk.opt.lanes } } = s.blk))) ∧
    (x.rxSleep ≠ 0 → exec (.adaptationStep p k before after) s = .next s) ∧
    (freeSpare s.blk p true = none ∨ l.fs - 100 ≤ l.fom → exec (.laneFloorRetrain p k) s = .next s) ∧
    (∀ f, l.st = 1 → l.fom < l.fs - 100 → freeSpare s.blk p true = some f → (opGet s.blk p).rx = none → (opGet s.blk p).wait = [] →
      Effect (.laneFloorRetrain p k) s (fun c => k.val ∈ (opGet c p).retrain ∧ (laneGet c p true f).st = 3 ∧ (laneGet c p true f).pos = l.pos ∧
        laneGet c p true k = l ∧ (lpGet c p).ctl = x.ctl ++ [(x.ctlNext, .migrate k f l.pos, 0)]))) ∧
  (∀ (s : State) (n : Fin 8) (f : D2dFrame), (parityUi f.data = f.parity → exec (.d2dParity n f) s = .next s) ∧
    (parityUi f.data ≠ f.parity → Effect (.d2dParity n f) s (fun c => (engGet c n).fenced = true ∧
      (∀ p ∈ engPorts n, ∀ l ∈ portLinks s.blk p, (lpGet c l).st = 0) ∧ regFld c (engBase n + 0x900) 17 1 = 1 ∧
      (∀ m, m ≠ n.val → engGet c m = engGet s.blk m) ∧
      ∃ r ∈ c.reports, r.source = 0x300 + 8 * n.val + f.up.toNat ∧ r.cls = contained)))

/-! ### The fabric (R368 to R389) -/

/-- Neighbours are known by their `HELLO`s; discovery is started, joined, reported, planned, assigned, tabled and committed; a request is
executed once and answered, resent with a higher `RETRY`, and lost after its time; a reservation is granted, refused, passed on and
released along its path.  A part of a split that waits for its peer goes on when the peer's join message fits it, and repeats its own
until then (R238). -/
def Obligations.FabricAndTransport : Prop :=
  (∀ (s : State) (l : LinkNo), let f := s.blk.fab
    let own := serialNo s.blk
    let master := bit (regGet s.blk 0x300000) 0
    let rxq := fun (ty : Nat) => f.rxq.eraseP (fun e => decide (e.1 = l.val) && decide (e.2.type = ty))
    let dropped := fun (ty : Nat) (c : Block) => c = { s.blk with fab := { f with rxq := rxq ty } }
    let logs := fun (c : Block) (r : List (Nat × Nat)) => c.reports.map (fun r => (r.source, r.cls)) = s.blk.reports.map (fun r => (r.source, r.cls)) ++ r
    let st := (fpGet s.blk l).st
    ((lpGet s.blk l).st ≠ 2 ∨ st = 0 → exec (.helloTimer l) s = .next s) ∧
    ((lpGet s.blk l).st = 2 → 1 ≤ st → st ≤ 5 → Effect (.helloTimer l) s (fun c => OnlyFabric s.blk c [l.val] ∧ c.fab = f ∧
      ∃ h, PacketSent s.blk c l (.hello h) ∧ h.serial = own ∧ h.planeB = (fpGet s.blk l).planeB ∧ h.port = portOf l ∧
        h.node = f.node.map (BitVec.ofNat 12) ∧ h.master = actsMaster s.blk ∧ (h.routed = none ↔ l.val < 32))) ∧
    (∀ h : HelloPkt, master = false →
      ((lpGet s.blk l).st ≠ 2 ∨ st = 0 → Effect (.hello l h) s (dropped 1)) ∧
      ((lpGet s.blk l).st = 2 → st ≠ 0 → let differs := h.planeB ≠ (fpGet s.blk l).planeB
        let now := if pairPort s.blk = some l.val then (if differs then 3 else 1) else if differs then 5
          else if h.node = none ∧ 2 ≤ f.state then 4 else 2
        Effect (.hello l h) s (fun c => (fpGet c l).st = now ∧ (fpGet c l).serial = h.serial ∧ (fpGet c l).valid = h.node.isSome ∧
          (fpGet c l).port = h.port % 32 ∧ (∀ n, h.node = some n → (fpGet c l).node = n.toNat) ∧ (fpGet c l).planeB = (fpGet s.blk l).planeB ∧
          (∀ j, j ≠ l.val → fpGet c j = fpGet s.blk j) ∧ { c.fab with ports := f.ports } = { f with rxq := rxq 1 } ∧
          { c with fab := f, reports := s.blk.reports } = s.blk ∧
          logs c (if now = 5 ∧ (fpGet s.blk l).logged = false then [(0x3A3, corrected)] else [])))) ∧
    (st = 2 → (∀ (m : Dword) (e : BitVec 16), let d := (e.toNat + 65536 - f.epoch) % 65536
      let fresh := f.master = 0 ∨ (m = f.master ∧ 1 ≤ d ∧ d < 32768) ∨ (m ≠ f.master ∧ m.toNat < f.master.toNat)
      (m = own ∨ ¬fresh → Effect (.discover l m e) s (dropped 2)) ∧
      (m ≠ own → fresh → master = false → Effect (.discover l m e) s (fun c =>
        c.fab.epoch = e.toNat ∧ c.fab.parent = some l.val ∧ c.fab.master = m ∧ c.fab.state = (if f.state = 4 then 4 else 1) ∧ c.fab.paths = [] ∧
        c.fab.act = f.act ∧ c.fab.node = f.node ∧ (∃ r, Out.packet l (.report r) ∈ c.out ∧ r.serial = own ∧ r.hops = 0 ∧ r.epoch = e) ∧
        (pktHops s.blk l 2 < 15 → { c with out := s.blk.out, lnk := s.blk.lnk, fab := f } = s.blk ∧
          ∀ k ∈ fabricLinks s.blk true, k ≠ l.val → Out.packet k (.discover m e) ∈ c.out) ∧
        (15 ≤ pktHops s.blk l 2 → logs c [(0x3A5, corrected)])))) ∧
    (∀ r : ReportPkt, let paths := f.paths.filter (fun e => decide (e.1 ≠ r.serial)) ++ [(r.serial, l.val)]
      (∀ q, master = false → f.parent = some q → (fpGet s.blk q).st = 2 → r.ports ≠ [] → r.hops < 15 → Effect (.reportMsg l r) s (fun c =>
        PacketSent s.blk c q (.report { r with hops := r.hops + 1 }) ∧ OnlyFabric s.blk c [q] ∧ c.fab = { f with rxq := rxq 3, paths := paths })) ∧
      (master = false → 15 ≤ r.hops → Effect (.reportMsg l r) s (fun c => c.fab = { f with rxq := rxq 3 } ∧ logs c [(0x3A5, corrected)] ∧
        c.out = s.blk.out)) ∧
      (actsMaster s.blk = true → (r.isMaster = false ∨ own.toNat ≤ r.serial.toNat) → r.ports ≠ [] →
        ((∀ o ∈ f.reports, o.serial ≠ r.serial) → mergeReport s.blk r = r) ∧ Effect (.reportMsg l r) s (fun c =>
          c = { s.blk with fab := { f with
            rxq := rxq 3, paths := paths, fresh := true, reports := f.reports.filter (fun e => decide (e.serial ≠ r.serial)) ++ [mergeReport s.blk r] } })) ∧
      (actsMaster s.blk = true → (r.isMaster = false ∨ own.toNat ≤ r.serial.toNat) → r.ports = [] → r.epoch.toNat ≠ f.epoch →
        Effect (.reportMsg l r) s (dropped 3)) ∧
      (actsMaster s.blk = true → r.isMaster = true → r.serial.toNat < own.toNat → Effect (.reportMsg l r) s (fun c => c.fab.state = 4 ∧
        logs c [(0x3A1, corrected)]))) ∧
    (∀ (target : Dword) (id : BitVec 12) (t : TablePkt),
      (target = own → (∀ n, storedNode s.blk = some n → n = id) → Effect (.assignMsg l target id) s (fun c =>
        c = { s.blk with fab := { f with rxq := rxq 4, node := some id.toNat } })) ∧
      (∀ n, target = own → storedNode s.blk = some n → n ≠ id → Effect (.assignMsg l target id) s (fun c => c.fab.node = some id.toNat ∧
        logs c [(0x3A2, corrected)])) ∧
      (∀ q, target ≠ own → f.paths.find? (fun e => e.1 = target) = some (target, q) → (fpGet s.blk q).st = 2 →
        (pktHops s.blk l 4 < 15 → Effect (.assignMsg l target id) s (fun c => PacketSent s.blk c q (.assign target id) ∧ OnlyFabric s.blk c [q] ∧
          c.fab = { f with rxq := rxq 4 })) ∧
        (15 ≤ pktHops s.blk l 4 → Effect (.assignMsg l target id) s (fun c => c.out = s.blk.out ∧ logs c [(0x3A5, corrected)]))) ∧
      (∀ q, t.target = own → t.id ≠ none → f.parent = some q → (fpGet s.blk q).st = 2 → Effect (.tableMsg l t) s (fun c => OnlyFabric s.blk c [q] ∧
        c.fab = { f with rxq := rxq 5, inact := tablesOf t, epoch := t.epoch.toNat } ∧
        ∃ r, PacketSent s.blk c q (.report r) ∧ r.serial = own ∧ r.ports = [] ∧ r.epoch = t.epoch)) ∧
      (∀ q, t.target ≠ own → f.paths.find? (fun e => e.1 = t.target) = some (t.target, q) → (fpGet s.blk q).st = 2 → pktHops s.blk l 5 < 15 →
        Effect (.tableMsg l t) s (fun c => PacketSent s.blk c q (.table t) ∧ OnlyFabric s.blk c [q] ∧ c.fab = { f with rxq := rxq 5 }))) ∧
    (∀ e : BitVec 16,
      (f.act.epoch = e.toNat → 2 ≤ f.state → Effect (.commitMsg l e) s (dropped 6)) ∧
      (f.act.epoch ≠ e.toNat → f.inact.epoch = e.toNat → f.node ≠ none → f.state ≠ 4 → s.blk.host.evtOn = false → pktHops s.blk l 6 < 15 →
        Effect (.commitMsg l e) s (fun c =>
        c.fab.act = f.inact ∧ c.fab.state = 2 ∧ c.fab.node = f.node ∧ (isReady s.blk 1 0 = true → isReady c 6 0 = true) ∧
        (∀ k ∈ fabricLinks s.blk true, k ≠ l.val → Out.packet k (.commit e) ∈ c.out) ∧ c.reports = s.blk.reports ∧ c.pads = s.blk.pads)) ∧
      (f.act.epoch ≠ e.toNat → f.node = none → f.state ≠ 4 → pktHops s.blk l 6 < 15 → Effect (.commitMsg l e) s (fun c => c.fab.state = 3 ∧
        logs c [(0x3A4, corrected)])))) ∧
    (carries st 2 = false → (∀ m e, Effect (.discover l m e) s (dropped 2)) ∧ (∀ r, Effect (.reportMsg l r) s (dropped 3)) ∧
      (∀ t i, Effect (.assignMsg l t i) s (dropped 4)) ∧ (∀ t, Effect (.tableMsg l t) s (dropped 5)) ∧ ∀ e, Effect (.commitMsg l e) s (dropped 6))) ∧
  (∀ (s : State) (p : Fin 32), let f := s.blk.fab
    (actsMaster s.blk = true → Effect (.portStateReport p) s (fun c => let r := mergeReport s.blk (ownReport s.blk (allRecords s.blk))
      c = { s.blk with fab := { f with reports := f.reports.filter (fun e => decide (e.serial ≠ serialNo s.blk)) ++ [r], fresh := true } })) ∧
    (∀ q, bit (regGet s.blk 0x300000) 0 = false → f.parent = some q → (fpGet s.blk q).st = 2 → Effect (.portStateReport p) s (fun c =>
      OnlyFabric s.blk c [q] ∧ c.fab = f ∧ ∃ r, PacketSent s.blk c q (.report r) ∧ r.serial = serialNo s.blk ∧ r.ports = portRecords s.blk p))) ∧
  (∀ (s : State) (w : Word), actServed s.blk = true → let f := s.blk.fab
    (bit w 0 = true → bit w 1 = true → f.state ≠ 4 → isReady s.blk 1 0 = true → Effect (.fabricDiscoverWrite w) s (fun c =>
      c.fab.epoch = (f.epoch + 1) % 65536 ∧ c.fab.state = 1 ∧ c.fab.master = serialNo s.blk ∧ c.fab.parent = none ∧ c.fab.fresh = true ∧
      c.fab.reports.map (·.serial) = [serialNo s.blk] ∧ c.fab.node = f.node ∧
      (∀ l ∈ fabricLinks s.blk false, Out.packet l (.discover (serialNo s.blk) (BitVec.ofNat 16 (f.epoch + 1))) ∈ c.out))) ∧
    (bit w 0 = false → f.state ≠ 4 → Effect (.fabricDiscoverWrite w) s (fun c => regFld c 0x300000 0 1 = 0 ∧ regFld c 0x300000 2 1 = fld w 2 1 ∧
      { c with regs := s.blk.regs } = s.blk))) ∧
  (∀ (s : State) (plan : List TablePkt), s.blk.fab.fresh = false → exec (.discoveryQuietExpiry plan) s = .next s) ∧
  (∀ (s : State) (plan : List TablePkt), actsMaster s.blk = true → s.blk.fab.reports ≠ [] → s.blk.fab.fresh = true → s.blk.fab.state = 1 →
    let f := s.blk.fab
    let own := serialNo s.blk
    (∀ i, f.epoch < 65536 → assignIds s.blk = [(own, some i)] → s.blk.host.evtOn = false → Effect (.discoveryQuietExpiry plan) s (fun c =>
      c.fab.node = some i ∧ c.fab.state = 2 ∧ c.fab.act.epoch = f.epoch ∧ c.fab.act.modules = min 4096 f.reports.length ∧ c.fab.fresh = false ∧
      (∀ l ∈ fabricLinks s.blk true, Out.packet l (.commit (BitVec.ofNat 16 f.epoch)) ∈ c.out))) ∧
    (∀ x i q, (x, some i) ∈ assignIds s.blk → x ≠ own → f.paths.find? (fun e => e.1 = x) = some (x, q) → (fpGet s.blk q).st = 2 →
      Effect (.discoveryQuietExpiry plan) s (fun c => Out.packet q (.assign x (BitVec.ofNat 12 i)) ∈ c.out ∧
        x ∈ c.fab.sentTo ∧ c.fab.act = f.act ∧ ∃ t, Out.packet q (.table t) ∈ c.out ∧ t.target = x ∧ t.epoch = BitVec.ofNat 16 f.epoch ∧
          t.modules = f.reports.length ∧ t.id = some (BitVec.ofNat 12 i)))) ∧
  (∀ (s : State) (l : LinkNo) (k : FabPkt), let f := s.blk.fab
    let key := respKey k.src.toNat k.flow.toNat
    let hop := fun (vc : Bool) => nextHop s.blk vc (portOf l) k.src.toNat k.dst.toNat k.flow.toNat k.retry.toNat
    let back := nextHop s.blk true 32 k.dst.toNat k.src.toNat k.flow.toNat 0
    let counted := fun (o : Nat) (ty : Nat) (c : Block) => regFld c o 0 32 = min (2 ^ 32 - 1) (regFld s.blk o 0 32 + 1) ∧
      { c with regs := s.blk.regs } = popPkt s.blk l ty
    ((fpGet s.blk l).st ≠ 2 → Effect (.requestMsg l k) s (fun c => c = popPkt s.blk l 7) ∧ Effect (.responseMsg l k) s (fun c => c = popPkt s.blk l 8)) ∧
    ((fpGet s.blk l).st = 2 →
      (f.node = some k.dst.toNat → k.ecrcOk = false → Effect (.requestMsg l k) s (counted 0x30030C 7) ∧
        Effect (.responseMsg l k) s (counted 0x30030C 8)) ∧
      (f.node ≠ some k.dst.toNat → k.hops = 15 → Effect (.requestMsg l k) s (fun c => c.out = s.blk.out ∧
        c.reports.map (fun r => (r.source, r.cls)) = s.blk.reports.map (fun r => (r.source, r.cls)) ++ [(0x3A5, corrected)])) ∧
      (f.node ≠ some k.dst.toNat → k.hops ≠ 15 →
        (∀ q, hop false = some q → Effect (.requestMsg l k) s (fun c => OnlyFabric s.blk c [q] ∧ c.fab = (popPkt s.blk l 7).fab ∧
          PacketSent s.blk c q (.request k.msg))) ∧
        (hop false = none → Effect (.requestMsg l k) s (counted 0x300310 7)) ∧
        (∀ q, hop true = some q → Effect (.responseMsg l k) s (fun c => OnlyFabric s.blk c [q] ∧ c.fab = (popPkt s.blk l 8).fab ∧
          PacketSent s.blk c q (.response k.msg)))) ∧
      (f.node = some k.dst.toNat → k.ecrcOk = true →
        (∀ pad local_ q, k.msg = .draining pad → localPart s.blk k.src.toNat pad = some local_ → (padGet s.blk local_).env.sessionPart = false →
          back = some q →
          (tget none f.resp key = none → f.resp.length < 8192 → Effect (.requestMsg l k) s (fun c => (padGet c local_).peerDrain = true ∧
            OnlyPad s.blk c local_ ∧ tget none c.fab.resp key = some ⟨k.txid.toNat, [(k.txid.toNat, .done)]⟩ ∧
            Out.packet q (.response .done) ∈ c.out)) ∧
          (tget none f.resp key = none → 8192 ≤ f.resp.length → Effect (.requestMsg l k) s (fun c => c.pads = s.blk.pads ∧ c.fab.resp = f.resp ∧
            Out.packet q (.response .noContext) ∈ c.out)) ∧
          (∀ x e, tget none f.resp key = some x → x.newest = k.txid.toNat → x.cache.find? (fun e => e.1 = k.txid.toNat) = some e →
            Effect (.requestMsg l k) s (fun c => c.pads = s.blk.pads ∧ c.fab.resp = f.resp ∧ Out.packet q (.response e.2) ∈ c.out))) ∧
        (∀ x, flowGet s.blk k.flow.toNat = some x → (∃ a ∈ x.asked, a.txid = k.txid.toNat) → k.msg ≠ .noContext → x.held = [] →
          Effect (.responseMsg l k) s (fun c => flowGet c k.flow.toNat = some { x with asked := x.asked.filter (fun a => decide (a.txid ≠ k.txid.toNat)) } ∧
            (∀ j, j ≠ k.flow.toNat → flowGet c j = flowGet s.blk j) ∧ { c with fab := f } = s.blk)) ∧
        (∀ x, flowGet s.blk k.flow.toNat = some x → (∀ a ∈ x.asked, a.txid ≠ k.txid.toNat) →
          Effect (.responseMsg l k) s (fun c => c = popPkt s.blk l 8))))) ∧
  (∀ (s : State) (fl : Fin 8192) (txid : Word),
    (flowGet s.blk fl = none → exec (.transportResend fl txid) s = .next s ∧ exec (.transportLost fl) s = .next s) ∧
    (∀ x, flowGet s.blk fl = some x →
      (∀ a, x.asked.find? (fun a => a.txid = txid.toNat) = some a → let r := { a with retry := a.retry + 1, last := s.blk.time }
        (s.blk.time < a.last + 20000 ∨ a.first + 10000000 ≤ s.blk.time → exec (.transportResend fl txid) s = .next s) ∧
        (a.last + 20000 ≤ s.blk.time → s.blk.time < a.first + 10000000 → Effect (.transportResend fl txid) s (fun c => flowGet c fl = some { x with asked := x.asked.map (fun e => if e.txid = txid.toNat then r else e) } ∧
          regFld c 0x300304 0 32 = min (2 ^ 32 - 1) (regFld s.blk 0x300304 0 32 + 1) ∧ c.pads = s.blk.pads ∧ c.reports = s.blk.reports ∧
          (∀ n q, s.blk.fab.node = some n → nextHop s.blk false 32 n x.peer fl (r.retry % 8) = some q → Out.packet q (.request a.msg) ∈ c.out)))) ∧
      ((∀ a ∈ x.asked, s.blk.time < a.first + 10000000) → exec (.transportLost fl) s = .next s) ∧
      ((∃ a ∈ x.asked, a.first + 10000000 ≤ s.blk.time) → workingSlots s.blk x.pad true = [] → (padGet s.blk x.pad).st = .ready → s.blk.host.evtOn = false →
        Effect (.transportLost fl) s (fun c => flowGet c fl = some { x with asked := [], held := [] } ∧
          padGet c x.pad = { padGet s.blk x.pad with st := .joining, joined := false, answered := false, peerBusy := false } ∧ OnlyPad s.blk c x.pad ∧
          regFld c 0x300308 0 32 = min (2 ^ 32 - 1) (regFld s.blk 0x300308 0 32 + 1) ∧
          c.reports.map (fun r => (r.source, r.cls)) = s.blk.reports.map (fun r => (r.source, r.cls)) ++ [(0x3A0, contained)])))) ∧
  (∀ (s : State) (l : LinkNo) (r : ResvPkt), let f := s.blk.fab
    let flow := r.flow.toNat
    let src := r.src.toNat
    let hops := pktHops s.blk l 9
    let rxq := f.rxq.eraseP (fun e => decide (e.1 = l.val) && decide (e.2.type = 9))
    let hop := nextHop s.blk false (portOf l) src r.dst.toNat flow 0
    let same := fun (e : Resv) => e.flow = flow ∧ e.src = src
    let answered := fun (c : Block) (ok : Bool) => PacketSent s.blk c l (.resv { r with answer := some ok, hops := hops + 1 })
    ((fpGet s.blk l).st ≠ 2 → Effect (.resv l r) s (fun c => c = popPkt s.blk l 9)) ∧
    ((fpGet s.blk l).st = 2 → (lpGet s.blk l).txSleep ≠ 2 → r.rate ≠ 0 →
      (r.answer = none → r.release = false → f.node = some r.dst.toNat →
        (canHold s.blk l flow src r.rate = true → Effect (.resv l r) s (fun c => OnlyFabric s.blk c [l.val] ∧ answered c true ∧
          ⟨l, 544, flow, src, r.dst.toNat, r.rate⟩ ∈ c.fab.resv ∧ (∀ e, ¬same e → (e ∈ c.fab.resv ↔ e ∈ f.resv)))) ∧
        (canHold s.blk l flow src r.rate = false → Effect (.resv l r) s (fun c => OnlyFabric s.blk c [l.val] ∧ answered c false ∧
          c.fab = { f with rxq := rxq }))) ∧
      (r.answer = none → r.release = false → f.node ≠ some r.dst.toNat →
        (15 ≤ hops → Effect (.resv l r) s (fun c => c.out = s.blk.out ∧ c.fab = { f with rxq := rxq } ∧
          c.reports.map (fun r => (r.source, r.cls)) = s.blk.reports.map (fun r => (r.source, r.cls)) ++ [(0x3A5, corrected)])) ∧
        (hops < 15 → hop = none → Effect (.resv l r) s (fun c => c.fab = { f with rxq := rxq } ∧ answered c false ∧
          regFld c 0x300310 0 32 = min (2 ^ 32 - 1) (regFld s.blk 0x300310 0 32 + 1))) ∧
        (∀ q, hops < 15 → hop = some q → (lpGet s.blk q).txSleep ≠ 2 → rateOn s.blk q flow src < r.rate →
          let fits := fun (k : Nat) => reservable s.blk k = true ∧ 12 ≤ (lpGet s.blk k).width ∧ resvLoad s.blk k - rateOn s.blk k flow src + r.rate ≤ 1500
          (¬fits q → Effect (.resv l r) s (fun c => c.fab = { f with rxq := rxq } ∧ answered c false)) ∧
          (fits q → fits l → Effect (.resv l r) s (fun c => ⟨l, q, flow, src, r.dst.toNat, r.rate⟩ ∈ c.fab.resv ∧
            (∀ e, ¬same e → (e ∈ c.fab.resv ↔ e ∈ f.resv)) ∧
            c.fab.asking = f.asking ++ [⟨l, flow, src, rateOn s.blk q flow src⟩] ∧ PacketSent s.blk c q (.resv r))))) ∧
      (∀ e, r.answer = none → r.release = true → f.node = some r.dst.toNat ∨ hops < 15 → f.resv.find? (fun e => e.isOf flow src) = some e →
        (fpGet s.blk e.port).st = 2 → Effect (.resv l r) s (fun c => (∀ x, x ∈ c.fab.resv ↔ x ∈ f.resv ∧ ¬same x) ∧ PacketSent s.blk c e.port (.resv r))) ∧
      (∀ a, r.answer = some true → f.node = some src ∨ hops < 15 → f.asking = [a] → a.flow = flow → a.src = src → a.input < 544 →
        (fpGet s.blk a.input).st = 2 → Effect (.resv l r) s (fun c =>
          c.fab = { f with rxq := rxq, asking := [] } ∧ PacketSent s.blk c a.input (.resv r))))) ∧
  (∀ (s : State) (p : Fin 64) (j : JoinIn), let y := padGet s.blk p
    y.st = .joining →
    (joins s.blk p j.msg = true → Effect (.splitJoinMessage p j) s (fun c => (padGet c p).st = .ready ∧ (padGet c p).joined = true ∧
      (padGet c p).peerPad = j.msg.paddock.toNat)) ∧
    (∀ f fl x i e, y.answered = false → y.flows = f :: fl → flowGet s.blk f = some x → x.asked.length < 256 → s.blk.fab.node = some i →
      nextHop s.blk false 32 i x.peer f 0 = some e → Effect (.splitJoinRepeat p) s (fun c => PacketSent s.blk c e (.request (.join p (joinMsg s.blk p))))))

/-! ### The redundant pair -/

/-- R401, R408: the heartbeat timer beats on both paths, and a standby that no longer covers a paddock disarms; what heartbeats and their
silence show.  R396 to R400: the halter line; the module that takes the reins uses an epoch above every one it has seen.  R405 to R408:
a batch is committed whole or discarded; acknowledgement, protection and resync.  R410, R411: a standby declares a takeover or
refuses it, and its phases follow each other. -/
def Obligations.RedundantPair : Prop :=
  (∀ (s : State) (p : Nat), pairPort s.blk = some p → s.blk.pair.beating = true → let x := s.blk.pair
    let y := if x.role = 2 ∧ x.armed = true ∧ coversAll s.blk = false then { x with armed := false, fresh := true, resync := false } else x
    Effect .heartbeatTimer s (fun c => c.pair = { y with beats := y.beats + 1 } ∧ { c with out := s.blk.out, lnk := s.blk.lnk, pair := x } = s.blk ∧
      (∀ j, j ≠ p → lpGet c j = lpGet s.blk j) ∧ ∃ fs : List (Flit × List (Nat × List Int)), c.out = s.blk.out ++ .heartbeatWire ::
        (if (fpGet s.blk p).st = 3 then .packet p (.heartbeat y.role y.fast y.armed (BitVec.ofNat 32 y.epoch)) ::
          fs.map (fun e => Out.flit p e.1 e.2) else []))) ∧
  (∀ s : State, pairOn s.blk = true → s.blk.flt.fatal = false → let x := s.blk.pair
    Effect (.heartbeat .wire) s (fun c => c = { s.blk with pair := { x with wireOk := true, wireBeat := s.blk.time } }) ∧
    (∀ (n : Dword) (role : Nat) (fast armed : Bool) (e : Word) (p : Nat), pairPort s.blk = some p → (fpGet s.blk p).st = 3 →
      let seen := max x.seen e.toNat
      (x.role ≠ 0 → x.linkOk = true → x.partnerRole = role → fast = x.fast → (armed = true ∨ x.partnerArmed = false) →
        Effect (.heartbeat (.packet n role fast armed e)) s (fun c => c = { popPkt s.blk p 12 with pair :=
          { x with met := true, linkBeat := s.blk.time, partnerFast := fast, partnerArmed := armed, seen := seen, mismatch := false } })) ∧
      (x.role = 0 → x.request = false → x.broken = false → x.reads = false → bit (regGet s.blk 0x310000) 1 = true → x.partnerArmed = false →
        fast = x.fast → role = 0 → x.held = [] → x.orphans = [] → s.blk.sess.slots = [] → Effect (.heartbeat (.packet n role fast armed e)) s (fun c =>
          c.pair.role = 1 ∧ c.pair.request = true ∧ c.pair.epoch = max x.epoch seen + 1 ∧ c.out = s.blk.out ++ [.halter true false])) ∧
      (x.role = 2 → x.mismatch = false → fast ≠ x.fast → Effect (.heartbeat (.packet n role fast armed e)) s (fun c =>
        c.pair.mismatch = true ∧ c.pair.armed = false ∧
        c.reports.map (fun r => (r.source, r.cls)) = s.blk.reports.map (fun r => (r.source, r.cls)) ++ [(0x3B9, corrected)]))) ∧
    (∀ wire link : Bool, x.met = false → exec (.heartbeatSilence wire link) s = .next s) ∧
    (∀ wire link : Bool, s.blk.time < x.wireBeat + tHb s.blk → s.blk.time < x.linkBeat + tHb s.blk → x.wireOk = true →
      exec (.heartbeatSilence wire link) s = .next s) ∧
    (x.met = true → x.wireOk = true → x.linkOk = true → x.wireBeat + tHb s.blk ≤ s.blk.time → x.linkBeat + tHb s.blk ≤ s.blk.time →
      Effect (.heartbeatSilence true false) s (fun c => c.pair = { x with wireOk := false } ∧ { c with pair := x, reports := s.blk.reports } = s.blk ∧
        c.reports.map (fun r => (r.source, r.cls)) = s.blk.reports.map (fun r => (r.source, r.cls)) ++ [(0x3B1, corrected)]) ∧
      Effect (.heartbeatSilence false true) s (fun c => c.pair.linkOk = false ∧ c.pair.armed = (x.armed && decide (x.role ≠ 2)) ∧
        c.reports.map (fun r => (r.source, r.cls)) = s.blk.reports.map (fun r => (r.source, r.cls)) ++ [(0x3B1, corrected)]) ∧
      (x.role = 2 → Effect (.heartbeatSilence true true) s (fun c => regFld c 0x310008 9 1 = 1 ∧ c.pair.linkOk = false ∧ c.pair.wireOk = false ∧
        (if x.reads = false ∧ x.broken = false ∧ x.mismatch = false ∧ (x.fast = true ∨ x.armed = true) then
          c.pair.role = 3 ∧ c.pair.phase = some 2 ∧ c.pair.declared = s.blk.time ∧
          c.reports.map (fun r => (r.source, r.cls)) = s.blk.reports.map (fun r => (r.source, r.cls)) ++ [(0x3B0, corrected)]
        else c.pair.role = 2 ∧
          c.reports.map (fun r => (r.source, r.cls)) = s.blk.reports.map (fun r => (r.source, r.cls)) ++ [(0x3B0, corrected), (0x3B8, corrected)]))) ∧
      (x.role = 1 → x.partnerArmed = true → x.unprotected = false → x.held = [] → Effect (.heartbeatSilence true true) s (fun c =>
        c.pair.role = 1 ∧ c.pair.unprotected = true ∧ regFld c 0x310008 9 1 = 1 ∧
        c.reports.map (fun r => (r.source, r.cls)) = s.blk.reports.map (fun r => (r.source, r.cls)) ++ [(0x3B0, corrected), (0x3B3, contained)])))) ∧
  (∀ s : State, let x := s.blk.pair
    (∀ v : Bool, Effect (.halterLineChange v v) s (fun c => c = { s.blk with pair := { x with railP := v, railN := v } })) ∧
    (pairOn s.blk = true → s.blk.flt.fatal = false → x.broken = false → loadedPads s.blk = [] → s.blk.host.evtOn = false → x.held = [] →
      x.orphans = [] → s.blk.sess.slots = [] →
      (x.role = 1 → Effect (.halterLineChange true false) s (fun c => c.pair.role = 4 ∧ c.pair.request = false ∧ c.pair.reads = true ∧
        (∀ u < 80, isReady c 4 u = false) ∧ (∀ u < 4, isReady c 3 u = false) ∧
        c.reports.map (fun r => (r.source, r.cls)) = s.blk.reports.map (fun r => (r.source, r.cls)) ++ [(0x3B7, contained)])) ∧
      (x.role = 0 → x.request = true → Effect (.halterLineChange false true) s (fun c => c = { s.blk with pair := { x with
        railP := false, railN := true, reads := false, role := 1, alone := false, epoch := max x.epoch x.seen + 1, seen := max x.epoch x.seen + 1 } })) ∧
      (x.role = 0 → x.request = false → x.met = true → Effect (.halterLineChange true false) s (fun c => c.pair.role = 2 ∧ c.pair.armed = false ∧
        (∀ u < 80, isReady c 4 u = false) ∧ (∀ u < 4, isReady c 3 u = false) ∧ c.out = s.blk.out)) ∧
      (x.role = 3 → Effect (.halterLineChange true false) s (fun c => c.pair.role = 2 ∧ c.pair.phase = none ∧
        c.reports.map (fun r => (r.source, r.cls)) = s.blk.reports.map (fun r => (r.source, r.cls)) ++ [(0x3B8, corrected)]))) ∧
    (x.railP ≠ x.railN → exec .halterBroken s = .next s) ∧
    (pairOn s.blk = true → x.broken = false → x.railP = x.railN → s.blk.host.evtOn = false → x.held = [] → Effect .halterBroken s (fun c =>
      c.pair.broken = true ∧ c.pair.role = (if x.role = 3 then 2 else x.role) ∧ (x.role = 2 → c.pair.armed = false) ∧
      (x.role = 1 → x.partnerArmed = true → c.pair.unprotected = true) ∧ c.pair.request = x.request ∧
      c.reports.map (fun r => (r.source, r.cls)) = s.blk.reports.map (fun r => (r.source, r.cls)) ++
        (if x.role = 3 then [(0x3B8, corrected), (0x3B2, contained)] else [(0x3B2, contained)]))) ∧
    (x.broken = true → x.railP ≠ x.railN → x.role = 1 → x.reads = false → Effect .halterWhole s (fun c =>
      c = { s.blk with pair := { x with broken := false } }))) ∧
  (∀ (s : State) (p : Nat), pairPort s.blk = some p → (fpGet s.blk p).st = 3 → s.blk.flt.fatal = false → let x := s.blk.pair
    (∀ (items : List MirrorItem) (k : CommitRec), x.role = 2 → x.mismatch = false → x.fresh = false → k.resyncEnd = false →
      (batchOk s.blk items k = true → x.armed = false → (∀ m ∈ items, m.kind ≠ 5) → Effect (.mirror items k) s (fun c =>
        c.pair.items = items.foldl applyItem x.items ∧ c.pair.acked = k.mepoch.toNat ∧ c.pair.delta = (s.blk.time : Int) - k.actTime.toNat ∧
        c.pair.resync = true ∧ c.pair.armed = false ∧ c.reports = s.blk.reports ∧ PacketSent s.blk c p (.mirrorAck k.mepoch))) ∧
      (batchOk s.blk items k = false → Effect (.mirror items k) s (fun c => c.pair = { x with armed := false, fresh := true, resync := false } ∧
        c.reports.map (fun r => (r.source, r.cls)) = s.blk.reports.map (fun r => (r.source, r.cls)) ++ [(0x3B4, corrected)] ∧
        PacketSent s.blk c p (.pairCtl 1)))) ∧
    (∀ (items : List MirrorItem) (k : CommitRec), x.role = 2 → k.resyncEnd = true → bit (regGet s.blk 0x310000) 2 = x.partnerFast →
      batchOk s.blk items k = true → (∀ m ∈ items, m.kind ≠ 5) → (∀ m ∈ x.items, m.kind ≠ 5) → Effect (.mirror items k) s (fun c =>
        c.pair.armed = !x.broken ∧ c.pair.fast = x.partnerFast ∧ c.pair.mismatch = false ∧ PacketSent s.blk c p (.mirrorAck k.mepoch))) ∧
    (∀ e : Dword, (x.role ≠ 1 ∨ e.toNat ≤ x.acked ∨ x.sent < e.toNat → Effect (.mirrorAck e) s (fun c => c = popPkt s.blk p 11)) ∧
      (x.role = 1 → x.acked < e.toNat → e.toNat ≤ x.sent → (∀ h ∈ x.held, e.toNat < h.1) → Effect (.mirrorAck e) s (fun c =>
        c.pair.acked = e.toNat ∧ c.pair.held = x.held ∧ c.pair.ackAt = s.blk.time ∧ (x.resync = true → x.resyncEnd ≤ e.toNat → c.pair.resync = false ∧ c.pair.unprotected = false) ∧
        { c with pair := x } = popPkt s.blk p 11))) ∧
    (∀ code : Word, x.role = 1 → code = 2 ∨ code = 3 → Effect (.pairCtl code) s (fun c =>
      c = { popPkt s.blk p 13 with pair := { x with resync := false } })) ∧
    (∀ code : Word, x.role ≠ 1 → Effect (.pairCtl code) s (fun c => c = popPkt s.blk p 13)) ∧
    (∀ w : Word, actServed s.blk = true → bit w 0 = true → fld w 24 8 = 0x50 → x.role = 1 → x.held = [] →
      let resynced := fun (c : Block) => c.pair.resync = true ∧ c.pair.sent = x.sent + 1 ∧ c.pair.resyncEnd = x.sent + 1 ∧
        c.pair.fast = bit (regGet s.blk 0x310000) 2 ∧ ∃ items k, Out.packet p (.mirror items k) ∈ c.out ∧ k.resyncEnd = true ∧
          k.mepoch = BitVec.ofNat 64 (x.sent + 1) ∧ k.items = items.length ∧ k.crc = crc32c (items.flatMap itemBytes)
      Effect (.resync w) s resynced ∧ Effect (.pairCtl 1) s resynced) ∧
    (∀ w : Word, actServed s.blk = true → fld w 24 8 ≠ 0x50 ∨ x.role ≠ 1 → exec (.resync w) s = .next s)) ∧
  (∀ (s : State) (n : Nat) (z : Slot), s.blk.flt.fatal = false → s.blk.sess.slots = [(n, z)] → let x := s.blk.pair
    x.role = 1 → x.acked < x.sent → x.wireOk = true → x.partnerArmed = true → x.unprotected = false → x.held = [] → x.ackAt + 2 * tHb s.blk ≤ s.blk.time →
    Effect .mirrorAckTimeout s (fun c => c.pair = { x with unprotected := true } ∧
      (slotGet c n).turns.map (·.bound) = z.turns.map (fun t => if t.ended.isSome then t.bound else t.bound + 30000000) ∧
      c.reports.map (fun r => (r.source, r.cls)) = s.blk.reports.map (fun r => (r.source, r.cls)) ++ [(0x3B3, contained)])) ∧
  (∀ s : State, s.blk.pair.role ≠ 1 ∨ s.blk.pair.sent ≤ s.blk.pair.acked ∨ s.blk.pair.wireOk = false ∨
      s.blk.time < s.blk.pair.ackAt + 2 * tHb s.blk → exec .mirrorAckTimeout s = .next s) ∧
  (∀ (s : State), s.blk.flt.fatal = false → let x := s.blk.pair
    (∀ k : Fin 6, x.role ≠ 3 ∨ x.phase ≠ some k.val → exec (.takeoverPhaseDone k) s = .next s) ∧
    (x.role = 3 → x.phase = some 2 → Effect (.takeoverPhaseDone 2) s (fun c => c.pair = { x with phase := some 3 } ∧
      (∀ u < 80, isReady c 4 u = true) ∧ (∀ u < 4, isReady c 3 u = true))) ∧
    (x.role = 3 → x.phase = some 3 → x.cover = [] → Effect (.takeoverPhaseDone 3) s (fun c =>
      c = { s.blk with pair := { x with phase := some (if x.fast then 5 else 4) } })) ∧
    (∀ m : MirrorItem, x.role = 3 → x.phase = some 4 → x.items.filter (fun m => decide (m.kind = 1)) = [m] → s.blk.sess.slots = [] →
      Effect (.takeoverPhaseDone 4) s (fun c => c.pair = { x with phase := some 5 } ∧ (slotGet c m.slot).position = leAt m.data 0x18 4 ∧
        (slotGet c m.slot).nextSeq = leAt m.data 0x10 8 ∧ (slotGet c m.slot).seed = BitVec.ofNat 64 (leAt m.data 0x20 8))) ∧
    (x.role = 3 → x.phase = some 5 → x.reads = true ∨ x.broken = true → s.blk.host.evtOn = false → Effect (.takeoverPhaseDone 5) s (fun c =>
      c.pair = { x with role := 2, phase := none } ∧ (∀ u < 80, isReady c 4 u = false) ∧
      c.reports.map (fun r => (r.source, r.cls)) = s.blk.reports.map (fun r => (r.source, r.cls)) ++ [(0x3B8, corrected)])) ∧
    (x.role = 3 → x.phase = some 5 → x.reads = false → x.broken = false → x.items = [] → x.orphans = [] → s.blk.host.pairs = [] →
      (x.fast = true → s.blk.sess.slots = []) → Effect (.takeoverPhaseDone 5) s (fun c => c.pair.role = 1 ∧ c.pair.phase = none ∧
        c.pair.request = true ∧ c.pair.epoch = max x.epoch x.seen + 1 ∧
        c.reports.map (fun r => (r.source, r.cls)) = s.blk.reports.map (fun r => (r.source, r.cls)) ++
          (if max x.wireBeat x.linkBeat + 30000000 < s.blk.time then [(0x3B6, corrected), (0x3B5, corrected)] else [(0x3B5, corrected)]))))

/-! ### Reset and the addressed memories -/

/-- R421, R522, R20, R22: after a cold reset with power applied nothing waits, nothing is ready, ROOT does not run, no paddock is loaded,
no session is open, device time is 0 and every addressed memory is empty and canonical; every field that a field table gives a reset
value of its own other than 0 holds it. -/
def Obligations.ResetState : Prop :=
  let b := State.reset.blk
  State.reset.pending = [] ∧ b.time = 0 ∧ b.out = [] ∧ b.reports = [] ∧ Memory.wf b = true ∧ rootRuns b = false ∧
  (∀ f u, isReady b f u = false) ∧ (∀ p, padGet b p = Pad.init) ∧ (∀ n, slotGet b n = Slot.free) ∧ (∀ q, ringLive b q = false) ∧
  (∀ ck i, cbyte b ck i = 0) ∧ (∀ a, tget 0 b.hbm.mem a = 0) ∧ b.pair.role = 0 ∧ b.flt.fatal = false ∧ b.host.evtOn = false ∧
  (∀ e ∈ [(0x080100, 0, 16, 64), (0x020204, 0, 16, 1000), (0x08020C, 16, 16, 5000), (0x0600A0, 0, 16, 1000), (0x030400, 0, 1, 1), (0x030400, 8, 16, 20), (0x310000, 8, 5, 31),
      (0x310000, 0, 3, 0), (0x310004, 0, 14, 100), (0x040000, 0, 16, 27140), (0x040308, 0, 16, 33000), (0x060000, 0, 1, 1), (0x060000, 2, 1, 1),
      (0x060000, 8, 17, 2000)], regFld b e.1 e.2.1 e.2.2.1 = e.2.2.2) ∧
  (∀ p : Fin 32, regFld b (linkBase p) 3 1 = 1 ∧ regFld b (linkBase p) 4 1 = 1 ∧ regFld b (linkBase p) 8 8 = 10 ∧
    regFld b (linkBase p) 16 16 = 1000)

/-- The canonical form of the addressed memories is an invariant: a step over an empty queue with no link up and no
engine reset in progress, over a core command, or over an access to
the CXL.mem window keeps the keys of cisterns, HBM, flash, settings store and BAR0 strictly rising and lists no entry equal to what an
unlisted one reads as. -/
def Obligations.MemoryStaysCanonical : Prop :=
  ∀ s t : State, Memory.wf s.blk = true →
    (s.pending = [] → (∀ l, (lpGet s.blk l).st ≠ 2) ∧ ∀ n < 8, (engGet s.blk n).resetting = false) →
    (∀ i r, s.pending = i :: r → (encodeCore i).isSome = true ∨ (∃ o, i = .cxlMemRead o) ∨ ∃ o d p, i = .cxlMemWrite o d p) →
    step s = .next t → Memory.wf t.blk = true
end

