-- ==== Sys2Proof/Laws/Bits.lean ====
section
/-! SUPPORT. Laws of byte order: little-endian numbers, lines and their bytes. -/

set_option Elab.async false

namespace Sys2Proof.Machine

theorem leNat_lt (l : List Byte) : leNat l < 256 ^ l.length := by
  induction l with
  | nil => simp [leNat]
  | cons b r ih =>
    have hb : b.toNat < 256 := b.isLt
    simp only [leNat, List.length_cons, Nat.pow_succ]
    omega

theorem leNat_append (l r : List Byte) : leNat (l ++ r) = leNat l + 256 ^ l.length * leNat r := by
  induction l with
  | nil => simp [leNat]
  | cons b q ih =>
    simp only [List.cons_append, leNat, ih, List.length_cons, Nat.pow_succ, Nat.mul_add, Nat.add_assoc]
    rw [← Nat.mul_assoc, Nat.mul_comm 256 (256 ^ q.length)]

theorem leNat_drop (l : List Byte) (i : Nat) (h : i ≤ l.length) : leNat (l.drop i) = leNat l / 256 ^ i := by
  have h1 : l = l.take i ++ l.drop i := (List.take_append_drop i l).symm
  have h2 : (l.take i).length = i := by simp [h]
  have h3 : leNat (l.take i) < 256 ^ i := by
    have := leNat_lt (l.take i); rwa [h2] at this
  conv => rhs; rw [h1, leNat_append, h2, Nat.add_mul_div_left _ _ (Nat.pow_pos (by decide)), Nat.div_eq_of_lt h3]
  simp

theorem leNat_take (l : List Byte) (n : Nat) (h : n ≤ l.length) : leNat (l.take n) = leNat l % 256 ^ n := by
  have h1 : l = l.take n ++ l.drop n := (List.take_append_drop n l).symm
  have h2 : (l.take n).length = n := by simp [h]
  have h3 : leNat (l.take n) < 256 ^ n := by
    have := leNat_lt (l.take n); rwa [h2] at this
  conv => rhs; rw [h1, leNat_append, h2, Nat.add_mul_mod_self_left, Nat.mod_eq_of_lt h3]

/-- The number that `n` bytes of a byte list from byte `i` on spell. -/
theorem leNat_slice (l : List Byte) (i n : Nat) (h : i + n ≤ l.length) :
    leNat ((l.drop i).take n) = leNat l / 256 ^ i % 256 ^ n := by
  rw [leNat_take _ _ (by simp; omega), leNat_drop _ _ (by omega)]

theorem pow_256 (n : Nat) : 256 ^ n = 2 ^ (8 * n) := by rw [show 256 = 2 ^ 8 from rfl, ← Nat.pow_mul]

/-- `n` bytes of a line of 64 bytes, from byte `i` on. -/
theorem fld_lineOf (l : List Byte) (i n : Nat) (h : l.length = 64) (hi : i + n ≤ 64) :
    fld (lineOf l) (8 * i) (8 * n) = leNat ((l.drop i).take n) := by
  unfold fld lineOf
  have hl : leNat (l.take 64) < 2 ^ 512 := by
    have := leNat_lt (l.take 64)
    rw [List.length_take, h, pow_256] at this
    exact this
  rw [BitVec.toNat_ofNat, Nat.mod_eq_of_lt hl, leNat_slice _ _ _ (by omega), List.take_of_length_le (by omega), pow_256, pow_256]

/-- Bytes of a line of a cistern. -/
theorem fld_cline (b : Block) (ck a n : Nat) (h : a % 64 + n ≤ 64) : fld (cline b ck (a / 64)) (8 * (a % 64)) (8 * n) = cbytes b ck a n := by
  unfold cline cbytes
  rw [fld_lineOf _ _ _ (by simp) h]
  congr 1
  rw [← List.map_drop, ← List.map_take]
  apply List.ext_getElem
  · simp; omega
  · intro i h1 h2
    simp only [List.getElem_map, List.getElem_take, List.getElem_drop, List.getElem_range]
    congr 1
    omega

@[simp] theorem bytesOf_length (n v : Nat) : (bytesOf n v).length = n := by simp [bytesOf]

@[simp] theorem lineBytes_length (v : Line) : (lineBytes v).length = 64 := by simp [lineBytes]

/-- Byte `i` of a little-endian byte list. -/
theorem bytesOf_get {w : Nat} (v : BitVec w) (n i : Nat) (h : i < n) :
    (bytesOf n v.toNat).getD i 0 = v.extractLsb' (8 * i) 8 := by
  unfold bytesOf
  rw [List.getD_eq_getElem?_getD, List.getElem?_map, List.getElem?_range h]
  apply BitVec.eq_of_toNat_eq
  simp [Nat.shiftRight_eq_div_pow, pow_256]

end Sys2Proof.Machine
end

