-- ==== Sys2Proof/Laws/Table.lean ====
section
/-! SUPPORT. Laws of sparse tables: a read after a write, and the canonical form that every table operation keeps. -/

set_option Elab.async false

namespace Sys2Proof.Machine

variable {α : Type}

@[simp] theorem tget_nil (d : α) (i : Nat) : tget d [] i = d := rfl

theorem tget_cons (d : α) (k : Nat) (v : α) (r : Tbl α) (i : Nat) :
    tget d ((k, v) :: r) i = if i = k then v else tget d r i := rfl

/-- A key outside the table reads the default. -/
theorem tget_absent (d : α) (m : Tbl α) (i : Nat) (h : ∀ e ∈ m, e.1 ≠ i) : tget d m i = d := by
  induction m with
  | nil => rfl
  | cons e r ih =>
    obtain ⟨k, v⟩ := e
    have hk : i ≠ k := fun hh => h (k, v) (List.mem_cons_self ..) hh.symm
    rw [tget_cons, if_neg hk]
    exact ih (fun e he => h e (List.mem_cons_of_mem _ he))

theorem tget_tins_same (d : α) (m : Tbl α) (i : Nat) (x : α) : tget d (tins m i x) i = x := by
  induction m with
  | nil => simp [tins, tget]
  | cons e r ih =>
    obtain ⟨k, v⟩ := e
    unfold tins
    split
    · simp [tget]
    · split
      · simp [tget]
      · rename_i h1 h2
        simp [tget, h2, ih]

theorem tget_tins_ne (d : α) (m : Tbl α) (i j : Nat) (x : α) (h : j ≠ i) : tget d (tins m i x) j = tget d m j := by
  induction m with
  | nil => simp [tins, tget, h]
  | cons e r ih =>
    obtain ⟨k, v⟩ := e
    unfold tins
    split
    · simp [tget, h]
    · split
      · rename_i h1 h2
        subst h2
        simp [tget, h]
      · simp [tget, ih]

theorem tget_tdel_same (d : α) (m : Tbl α) (i : Nat) : tget d (tdel m i) i = d := by
  induction m with
  | nil => rfl
  | cons e r ih =>
    obtain ⟨k, v⟩ := e
    unfold tdel
    split
    · exact ih
    · rename_i h
      simp [tget, h, ih]

theorem tget_tdel_ne (d : α) (m : Tbl α) (i j : Nat) (h : j ≠ i) : tget d (tdel m i) j = tget d m j := by
  induction m with
  | nil => rfl
  | cons e r ih =>
    obtain ⟨k, v⟩ := e
    unfold tdel
    split
    · rename_i hk
      subst hk
      simp [tget, h, ih]
    · simp [tget, ih]

/-- A read after a write to the same key gives the value written. -/
@[simp] theorem tget_tput_same [DecidableEq α] (d : α) (m : Tbl α) (i : Nat) (x : α) : tget d (tput d m i x) i = x := by
  unfold tput
  split
  · rename_i h
    rw [tget_tdel_same, h]
  · exact tget_tins_same d m i x

/-- A write leaves every other key alone. -/
theorem tget_tput_ne [DecidableEq α] (d : α) (m : Tbl α) (i j : Nat) (x : α) (h : j ≠ i) :
    tget d (tput d m i x) j = tget d m j := by
  unfold tput
  split
  · exact tget_tdel_ne d m i j h
  · exact tget_tins_ne d m i j x h

/-- Both cases of a read after a write. -/
theorem tget_tput [DecidableEq α] (d : α) (m : Tbl α) (i j : Nat) (x : α) :
    tget d (tput d m i x) j = if j = i then x else tget d m j := by
  split
  · rename_i h
    rw [h, tget_tput_same]
  · rename_i h
    exact tget_tput_ne d m i j x h

theorem tabove_iff (b : Nat) (m : Tbl α) : tabove b m = true ↔ ∀ e ∈ m, b < e.1 := by
  simp [tabove]

theorem mem_tins (m : Tbl α) (i : Nat) (x : α) (e : Nat × α) (h : e ∈ tins m i x) : e = (i, x) ∨ e ∈ m := by
  induction m with
  | nil => simpa [tins] using h
  | cons f r ih =>
    obtain ⟨k, v⟩ := f
    unfold tins at h
    split at h
    · simpa using h
    · split at h
      · rcases List.mem_cons.1 h with h | h
        · exact .inl h
        · exact .inr (List.mem_cons_of_mem _ h)
      · rcases List.mem_cons.1 h with h | h
        · exact .inr (h ▸ List.mem_cons_self ..)
        · rcases ih h with h | h
          · exact .inl h
          · exact .inr (List.mem_cons_of_mem _ h)

theorem mem_tdel (m : Tbl α) (i : Nat) (e : Nat × α) (h : e ∈ tdel m i) : e ∈ m := by
  induction m with
  | nil => exact h
  | cons f r ih =>
    obtain ⟨k, v⟩ := f
    unfold tdel at h
    split at h
    · exact List.mem_cons_of_mem _ (ih h)
    · rcases List.mem_cons.1 h with h | h
      · exact h ▸ List.mem_cons_self ..
      · exact List.mem_cons_of_mem _ (ih h)

theorem twf_cons [DecidableEq α] (d : α) (k : Nat) (v : α) (r : Tbl α) :
    twf d ((k, v) :: r) = true ↔ v ≠ d ∧ (∀ e ∈ r, k < e.1) ∧ twf d r = true := by
  simp [twf, tabove_iff, and_assoc]

theorem twf_tins [DecidableEq α] (d : α) (m : Tbl α) (i : Nat) (x : α) (hx : x ≠ d) (h : twf d m = true) :
    twf d (tins m i x) = true := by
  induction m with
  | nil => simp [tins, twf, hx, tabove]
  | cons f r ih =>
    obtain ⟨k, v⟩ := f
    obtain ⟨hv, hk, hr⟩ := (twf_cons d k v r).1 h
    unfold tins
    split
    · rename_i hik
      rw [twf_cons]
      refine ⟨hx, ?_, h⟩
      intro e he
      rcases List.mem_cons.1 he with he | he
      · rw [he]; exact hik
      · exact Nat.lt_trans hik (hk e he)
    · split
      · rename_i _ hik
        subst hik
        rw [twf_cons]
        exact ⟨hx, hk, hr⟩
      · rename_i h1 h2
        rw [twf_cons]
        refine ⟨hv, ?_, ih hr⟩
        intro e he
        rcases mem_tins r i x e he with he | he
        · rw [he]
          show k < i
          omega
        · exact hk e he

theorem twf_tdel [DecidableEq α] (d : α) (m : Tbl α) (i : Nat) (h : twf d m = true) : twf d (tdel m i) = true := by
  induction m with
  | nil => rfl
  | cons f r ih =>
    obtain ⟨k, v⟩ := f
    obtain ⟨hv, hk, hr⟩ := (twf_cons d k v r).1 h
    unfold tdel
    split
    · exact ih hr
    · rw [twf_cons]
      exact ⟨hv, fun e he => hk e (mem_tdel r i e he), ih hr⟩

/-- A write keeps the canonical form. -/
theorem twf_tput [DecidableEq α] (d : α) (m : Tbl α) (i : Nat) (x : α) (h : twf d m = true) : twf d (tput d m i x) = true := by
  unfold tput
  split
  · exact twf_tdel d m i h
  · rename_i hx
    exact twf_tins d m i x hx h

/-- A table without some of its entries keeps the canonical form. -/
theorem twf_filter [DecidableEq α] (d : α) (m : Tbl α) (p : Nat × α → Bool) (h : twf d m = true) : twf d (m.filter p) = true := by
  induction m with
  | nil => rfl
  | cons f r ih =>
    obtain ⟨k, v⟩ := f
    obtain ⟨hv, hk, hr⟩ := (twf_cons d k v r).1 h
    rw [List.filter_cons]
    split
    · rw [twf_cons]
      exact ⟨hv, fun e he => hk e (List.mem_filter.1 he).1, ih hr⟩
    · exact ih hr

theorem twf_tmod [DecidableEq α] (d : α) (m : Tbl α) (i : Nat) (f : α → α) (h : twf d m = true) : twf d (tmod d m i f) = true :=
  twf_tput d m i _ h

theorem twf_tmodAll [DecidableEq α] (d : α) (f : Nat → α → α) (ks : List Nat) (m : Tbl α) (h : twf d m = true) :
    twf d (tmodAll d m ks f) = true := by
  induction ks generalizing m with
  | nil => exact h
  | cons k r ih => exact ih (tmod d m k (f k)) (twf_tmod d m k (f k) h)

theorem twf_tmapAll [DecidableEq α] (d : α) (m : Tbl α) (f : Nat → α → α) (h : twf d m = true) : twf d (tmapAll d m f) = true :=
  twf_tmodAll d f _ m h

/-! ### Bytes -/

/-- Writing bytes keeps the canonical form. -/
theorem twf_putBytes (l : List Byte) (m : List Host.Cell) (k : Nat) (h : twf 0 m = true) : twf 0 (putBytes m k l) = true := by
  induction l generalizing m k with
  | nil => exact h
  | cons x r ih => exact ih (tput 0 m k x) (k + 1) (twf_tput 0 m k x h)

/-- Every byte outside those written reads as before. -/
theorem tget_putBytes_out (l : List Byte) (m : List Host.Cell) (k a : Nat) (h : a < k ∨ k + l.length ≤ a) :
    tget 0 (putBytes m k l) a = tget 0 m a := by
  induction l generalizing m k with
  | nil => rfl
  | cons x r ih =>
    have hr : a < k + 1 ∨ k + 1 + r.length ≤ a := by
      rcases h with h | h
      · exact .inl (by omega)
      · exact .inr (by simp at h; omega)
    have hne : a ≠ k := by
      rcases h with h | h
      · omega
      · simp at h; omega
    show tget 0 (putBytes (tput 0 m k x) (k + 1) r) a = _
    rw [ih (tput 0 m k x) (k + 1) hr, tget_tput_ne 0 m k a x hne]

/-- A byte written reads back. -/
theorem tget_putBytes_in (l : List Byte) (m : List Host.Cell) (k i : Nat) (h : i < l.length) :
    tget 0 (putBytes m k l) (k + i) = l[i] := by
  induction l generalizing m k i with
  | nil => simp at h
  | cons x r ih =>
    show tget 0 (putBytes (tput 0 m k x) (k + 1) r) (k + i) = _
    cases i with
    | zero =>
      show tget 0 (putBytes (tput 0 m k x) (k + 1) r) k = x
      rw [tget_putBytes_out r _ _ _ (.inl (by omega)), tget_tput_same]
    | succ j =>
      have := ih (tput 0 m k x) (k + 1) j (by simpa using h)
      rw [show k + 1 + j = k + (j + 1) by omega] at this
      simpa using this

end Sys2Proof.Machine
end

