-- ==== Sys2Proof/Laws/State.lean ====
section
/-! SUPPORT. One lemma per field per update of the block, so that no later proof unfolds a record update, and the reads after
writes of the named operations. -/

set_option Elab.async false

namespace Sys2Proof.Machine

/-! ### `thrPut` -/

@[simp] theorem thrPut_time (b : Block) (k : Nat) (x : Thread) : (thrPut b k x).time = b.time := rfl
@[simp] theorem thrPut_freeCtr (b : Block) (k : Nat) (x : Thread) : (thrPut b k x).freeCtr = b.freeCtr := rfl
@[simp] theorem thrPut_die (b : Block) (k : Nat) (x : Thread) : (thrPut b k x).die = { b.die with thr := tput Thread.parked b.die.thr k x } := rfl
@[simp] theorem thrPut_pads (b : Block) (k : Nat) (x : Thread) : (thrPut b k x).pads = b.pads := rfl
@[simp] theorem thrPut_retired (b : Block) (k : Nat) (x : Thread) : (thrPut b k x).retired = b.retired := rfl
@[simp] theorem thrPut_reports (b : Block) (k : Nat) (x : Thread) : (thrPut b k x).reports = b.reports := rfl
@[simp] theorem thrPut_regs (b : Block) (k : Nat) (x : Thread) : (thrPut b k x).regs = b.regs := rfl
@[simp] theorem thrPut_out (b : Block) (k : Nat) (x : Thread) : (thrPut b k x).out = b.out := rfl
@[simp] theorem thrPut_hbm (b : Block) (k : Nat) (x : Thread) : (thrPut b k x).hbm = b.hbm := rfl
@[simp] theorem thrPut_lnk (b : Block) (k : Nat) (x : Thread) : (thrPut b k x).lnk = b.lnk := rfl
@[simp] theorem thrPut_fab (b : Block) (k : Nat) (x : Thread) : (thrPut b k x).fab = b.fab := rfl
@[simp] theorem thrPut_opt (b : Block) (k : Nat) (x : Thread) : (thrPut b k x).opt = b.opt := rfl
@[simp] theorem thrPut_host (b : Block) (k : Nat) (x : Thread) : (thrPut b k x).host = b.host := rfl
@[simp] theorem thrPut_sess (b : Block) (k : Nat) (x : Thread) : (thrPut b k x).sess = b.sess := rfl
@[simp] theorem thrPut_flt (b : Block) (k : Nat) (x : Thread) : (thrPut b k x).flt = b.flt := rfl
@[simp] theorem thrPut_pwr (b : Block) (k : Nat) (x : Thread) : (thrPut b k x).pwr = b.pwr := rfl
@[simp] theorem thrPut_pair (b : Block) (k : Nat) (x : Thread) : (thrPut b k x).pair = b.pair := rfl
@[simp] theorem thrPut_sec (b : Block) (k : Nat) (x : Thread) : (thrPut b k x).sec = b.sec := rfl
@[simp] theorem thrPut_mgmt (b : Block) (k : Nat) (x : Thread) : (thrPut b k x).mgmt = b.mgmt := rfl

/-! ### `corePut` -/

@[simp] theorem corePut_time (b : Block) (k : Nat) (x : CoreS) : (corePut b k x).time = b.time := rfl
@[simp] theorem corePut_freeCtr (b : Block) (k : Nat) (x : CoreS) : (corePut b k x).freeCtr = b.freeCtr := rfl
@[simp] theorem corePut_die (b : Block) (k : Nat) (x : CoreS) : (corePut b k x).die = { b.die with cores := tput CoreS.init b.die.cores k x } := rfl
@[simp] theorem corePut_pads (b : Block) (k : Nat) (x : CoreS) : (corePut b k x).pads = b.pads := rfl
@[simp] theorem corePut_retired (b : Block) (k : Nat) (x : CoreS) : (corePut b k x).retired = b.retired := rfl
@[simp] theorem corePut_reports (b : Block) (k : Nat) (x : CoreS) : (corePut b k x).reports = b.reports := rfl
@[simp] theorem corePut_regs (b : Block) (k : Nat) (x : CoreS) : (corePut b k x).regs = b.regs := rfl
@[simp] theorem corePut_out (b : Block) (k : Nat) (x : CoreS) : (corePut b k x).out = b.out := rfl
@[simp] theorem corePut_hbm (b : Block) (k : Nat) (x : CoreS) : (corePut b k x).hbm = b.hbm := rfl
@[simp] theorem corePut_lnk (b : Block) (k : Nat) (x : CoreS) : (corePut b k x).lnk = b.lnk := rfl
@[simp] theorem corePut_fab (b : Block) (k : Nat) (x : CoreS) : (corePut b k x).fab = b.fab := rfl
@[simp] theorem corePut_opt (b : Block) (k : Nat) (x : CoreS) : (corePut b k x).opt = b.opt := rfl
@[simp] theorem corePut_host (b : Block) (k : Nat) (x : CoreS) : (corePut b k x).host = b.host := rfl
@[simp] theorem corePut_sess (b : Block) (k : Nat) (x : CoreS) : (corePut b k x).sess = b.sess := rfl
@[simp] theorem corePut_flt (b : Block) (k : Nat) (x : CoreS) : (corePut b k x).flt = b.flt := rfl
@[simp] theorem corePut_pwr (b : Block) (k : Nat) (x : CoreS) : (corePut b k x).pwr = b.pwr := rfl
@[simp] theorem corePut_pair (b : Block) (k : Nat) (x : CoreS) : (corePut b k x).pair = b.pair := rfl
@[simp] theorem corePut_sec (b : Block) (k : Nat) (x : CoreS) : (corePut b k x).sec = b.sec := rfl
@[simp] theorem corePut_mgmt (b : Block) (k : Nat) (x : CoreS) : (corePut b k x).mgmt = b.mgmt := rfl

/-! ### `pumpPut` -/

@[simp] theorem pumpPut_time (b : Block) (k : Nat) (x : PumpS) : (pumpPut b k x).time = b.time := rfl
@[simp] theorem pumpPut_freeCtr (b : Block) (k : Nat) (x : PumpS) : (pumpPut b k x).freeCtr = b.freeCtr := rfl
@[simp] theorem pumpPut_die (b : Block) (k : Nat) (x : PumpS) : (pumpPut b k x).die = { b.die with pumps := tput PumpS.init b.die.pumps k x } := rfl
@[simp] theorem pumpPut_pads (b : Block) (k : Nat) (x : PumpS) : (pumpPut b k x).pads = b.pads := rfl
@[simp] theorem pumpPut_retired (b : Block) (k : Nat) (x : PumpS) : (pumpPut b k x).retired = b.retired := rfl
@[simp] theorem pumpPut_reports (b : Block) (k : Nat) (x : PumpS) : (pumpPut b k x).reports = b.reports := rfl
@[simp] theorem pumpPut_regs (b : Block) (k : Nat) (x : PumpS) : (pumpPut b k x).regs = b.regs := rfl
@[simp] theorem pumpPut_out (b : Block) (k : Nat) (x : PumpS) : (pumpPut b k x).out = b.out := rfl
@[simp] theorem pumpPut_hbm (b : Block) (k : Nat) (x : PumpS) : (pumpPut b k x).hbm = b.hbm := rfl
@[simp] theorem pumpPut_lnk (b : Block) (k : Nat) (x : PumpS) : (pumpPut b k x).lnk = b.lnk := rfl
@[simp] theorem pumpPut_fab (b : Block) (k : Nat) (x : PumpS) : (pumpPut b k x).fab = b.fab := rfl
@[simp] theorem pumpPut_opt (b : Block) (k : Nat) (x : PumpS) : (pumpPut b k x).opt = b.opt := rfl
@[simp] theorem pumpPut_host (b : Block) (k : Nat) (x : PumpS) : (pumpPut b k x).host = b.host := rfl
@[simp] theorem pumpPut_sess (b : Block) (k : Nat) (x : PumpS) : (pumpPut b k x).sess = b.sess := rfl
@[simp] theorem pumpPut_flt (b : Block) (k : Nat) (x : PumpS) : (pumpPut b k x).flt = b.flt := rfl
@[simp] theorem pumpPut_pwr (b : Block) (k : Nat) (x : PumpS) : (pumpPut b k x).pwr = b.pwr := rfl
@[simp] theorem pumpPut_pair (b : Block) (k : Nat) (x : PumpS) : (pumpPut b k x).pair = b.pair := rfl
@[simp] theorem pumpPut_sec (b : Block) (k : Nat) (x : PumpS) : (pumpPut b k x).sec = b.sec := rfl
@[simp] theorem pumpPut_mgmt (b : Block) (k : Nat) (x : PumpS) : (pumpPut b k x).mgmt = b.mgmt := rfl

/-! ### `padPut` -/

@[simp] theorem padPut_time (b : Block) (p : Nat) (x : Pad) : (padPut b p x).time = b.time := rfl
@[simp] theorem padPut_freeCtr (b : Block) (p : Nat) (x : Pad) : (padPut b p x).freeCtr = b.freeCtr := rfl
@[simp] theorem padPut_die (b : Block) (p : Nat) (x : Pad) : (padPut b p x).die = b.die := rfl
@[simp] theorem padPut_pads (b : Block) (p : Nat) (x : Pad) : (padPut b p x).pads = tput Pad.init b.pads p x := rfl
@[simp] theorem padPut_retired (b : Block) (p : Nat) (x : Pad) : (padPut b p x).retired = b.retired := rfl
@[simp] theorem padPut_reports (b : Block) (p : Nat) (x : Pad) : (padPut b p x).reports = b.reports := rfl
@[simp] theorem padPut_regs (b : Block) (p : Nat) (x : Pad) : (padPut b p x).regs = b.regs := rfl
@[simp] theorem padPut_out (b : Block) (p : Nat) (x : Pad) : (padPut b p x).out = b.out := rfl
@[simp] theorem padPut_hbm (b : Block) (p : Nat) (x : Pad) : (padPut b p x).hbm = b.hbm := rfl
@[simp] theorem padPut_lnk (b : Block) (p : Nat) (x : Pad) : (padPut b p x).lnk = b.lnk := rfl
@[simp] theorem padPut_fab (b : Block) (p : Nat) (x : Pad) : (padPut b p x).fab = b.fab := rfl
@[simp] theorem padPut_opt (b : Block) (p : Nat) (x : Pad) : (padPut b p x).opt = b.opt := rfl
@[simp] theorem padPut_host (b : Block) (p : Nat) (x : Pad) : (padPut b p x).host = b.host := rfl
@[simp] theorem padPut_sess (b : Block) (p : Nat) (x : Pad) : (padPut b p x).sess = b.sess := rfl
@[simp] theorem padPut_flt (b : Block) (p : Nat) (x : Pad) : (padPut b p x).flt = b.flt := rfl
@[simp] theorem padPut_pwr (b : Block) (p : Nat) (x : Pad) : (padPut b p x).pwr = b.pwr := rfl
@[simp] theorem padPut_pair (b : Block) (p : Nat) (x : Pad) : (padPut b p x).pair = b.pair := rfl
@[simp] theorem padPut_sec (b : Block) (p : Nat) (x : Pad) : (padPut b p x).sec = b.sec := rfl
@[simp] theorem padPut_mgmt (b : Block) (p : Nat) (x : Pad) : (padPut b p x).mgmt = b.mgmt := rfl

/-! ### `regPut` -/

@[simp] theorem regPut_time (b : Block) (o : Nat) (v : Word) : (regPut b o v).time = b.time := rfl
@[simp] theorem regPut_freeCtr (b : Block) (o : Nat) (v : Word) : (regPut b o v).freeCtr = b.freeCtr := rfl
@[simp] theorem regPut_die (b : Block) (o : Nat) (v : Word) : (regPut b o v).die = b.die := rfl
@[simp] theorem regPut_pads (b : Block) (o : Nat) (v : Word) : (regPut b o v).pads = b.pads := rfl
@[simp] theorem regPut_retired (b : Block) (o : Nat) (v : Word) : (regPut b o v).retired = b.retired := rfl
@[simp] theorem regPut_reports (b : Block) (o : Nat) (v : Word) : (regPut b o v).reports = b.reports := rfl
@[simp] theorem regPut_regs (b : Block) (o : Nat) (v : Word) : (regPut b o v).regs = tput 0 b.regs o v := rfl
@[simp] theorem regPut_out (b : Block) (o : Nat) (v : Word) : (regPut b o v).out = b.out := rfl
@[simp] theorem regPut_hbm (b : Block) (o : Nat) (v : Word) : (regPut b o v).hbm = b.hbm := rfl
@[simp] theorem regPut_lnk (b : Block) (o : Nat) (v : Word) : (regPut b o v).lnk = b.lnk := rfl
@[simp] theorem regPut_fab (b : Block) (o : Nat) (v : Word) : (regPut b o v).fab = b.fab := rfl
@[simp] theorem regPut_opt (b : Block) (o : Nat) (v : Word) : (regPut b o v).opt = b.opt := rfl
@[simp] theorem regPut_host (b : Block) (o : Nat) (v : Word) : (regPut b o v).host = b.host := rfl
@[simp] theorem regPut_sess (b : Block) (o : Nat) (v : Word) : (regPut b o v).sess = b.sess := rfl
@[simp] theorem regPut_flt (b : Block) (o : Nat) (v : Word) : (regPut b o v).flt = b.flt := rfl
@[simp] theorem regPut_pwr (b : Block) (o : Nat) (v : Word) : (regPut b o v).pwr = b.pwr := rfl
@[simp] theorem regPut_pair (b : Block) (o : Nat) (v : Word) : (regPut b o v).pair = b.pair := rfl
@[simp] theorem regPut_sec (b : Block) (o : Nat) (v : Word) : (regPut b o v).sec = b.sec := rfl
@[simp] theorem regPut_mgmt (b : Block) (o : Nat) (v : Word) : (regPut b o v).mgmt = b.mgmt := rfl

/-! ### `emit` -/

@[simp] theorem emit_time (b : Block) (o : Out) : (emit b o).time = b.time := rfl
@[simp] theorem emit_freeCtr (b : Block) (o : Out) : (emit b o).freeCtr = b.freeCtr := rfl
@[simp] theorem emit_die (b : Block) (o : Out) : (emit b o).die = b.die := rfl
@[simp] theorem emit_pads (b : Block) (o : Out) : (emit b o).pads = b.pads := rfl
@[simp] theorem emit_retired (b : Block) (o : Out) : (emit b o).retired = b.retired := rfl
@[simp] theorem emit_reports (b : Block) (o : Out) : (emit b o).reports = b.reports := rfl
@[simp] theorem emit_regs (b : Block) (o : Out) : (emit b o).regs = b.regs := rfl
@[simp] theorem emit_out (b : Block) (o : Out) : (emit b o).out = b.out ++ [o] := rfl
@[simp] theorem emit_hbm (b : Block) (o : Out) : (emit b o).hbm = b.hbm := rfl
@[simp] theorem emit_lnk (b : Block) (o : Out) : (emit b o).lnk = b.lnk := rfl
@[simp] theorem emit_fab (b : Block) (o : Out) : (emit b o).fab = b.fab := rfl
@[simp] theorem emit_opt (b : Block) (o : Out) : (emit b o).opt = b.opt := rfl
@[simp] theorem emit_host (b : Block) (o : Out) : (emit b o).host = b.host := rfl
@[simp] theorem emit_sess (b : Block) (o : Out) : (emit b o).sess = b.sess := rfl
@[simp] theorem emit_flt (b : Block) (o : Out) : (emit b o).flt = b.flt := rfl
@[simp] theorem emit_pwr (b : Block) (o : Out) : (emit b o).pwr = b.pwr := rfl
@[simp] theorem emit_pair (b : Block) (o : Out) : (emit b o).pair = b.pair := rfl
@[simp] theorem emit_sec (b : Block) (o : Out) : (emit b o).sec = b.sec := rfl
@[simp] theorem emit_mgmt (b : Block) (o : Out) : (emit b o).mgmt = b.mgmt := rfl

/-! ### `raise` -/

@[simp] theorem raise_time (b : Block) (src cls : Nat) (d0 d1 d2 d3 : Word) (u : FUnit) : (raise b src cls d0 d1 d2 d3 u).time = b.time := rfl
@[simp] theorem raise_freeCtr (b : Block) (src cls : Nat) (d0 d1 d2 d3 : Word) (u : FUnit) : (raise b src cls d0 d1 d2 d3 u).freeCtr = b.freeCtr := rfl
@[simp] theorem raise_die (b : Block) (src cls : Nat) (d0 d1 d2 d3 : Word) (u : FUnit) : (raise b src cls d0 d1 d2 d3 u).die = b.die := rfl
@[simp] theorem raise_pads (b : Block) (src cls : Nat) (d0 d1 d2 d3 : Word) (u : FUnit) : (raise b src cls d0 d1 d2 d3 u).pads = b.pads := rfl
@[simp] theorem raise_retired (b : Block) (src cls : Nat) (d0 d1 d2 d3 : Word) (u : FUnit) : (raise b src cls d0 d1 d2 d3 u).retired = b.retired := rfl
@[simp] theorem raise_reports (b : Block) (src cls : Nat) (d0 d1 d2 d3 : Word) (u : FUnit) : (raise b src cls d0 d1 d2 d3 u).reports = b.reports ++ [⟨src, cls, d0, d1, d2, d3, u, b.time, false, false, false, false⟩] := rfl
@[simp] theorem raise_regs (b : Block) (src cls : Nat) (d0 d1 d2 d3 : Word) (u : FUnit) : (raise b src cls d0 d1 d2 d3 u).regs = b.regs := rfl
@[simp] theorem raise_out (b : Block) (src cls : Nat) (d0 d1 d2 d3 : Word) (u : FUnit) : (raise b src cls d0 d1 d2 d3 u).out = b.out := rfl
@[simp] theorem raise_hbm (b : Block) (src cls : Nat) (d0 d1 d2 d3 : Word) (u : FUnit) : (raise b src cls d0 d1 d2 d3 u).hbm = b.hbm := rfl
@[simp] theorem raise_lnk (b : Block) (src cls : Nat) (d0 d1 d2 d3 : Word) (u : FUnit) : (raise b src cls d0 d1 d2 d3 u).lnk = b.lnk := rfl
@[simp] theorem raise_fab (b : Block) (src cls : Nat) (d0 d1 d2 d3 : Word) (u : FUnit) : (raise b src cls d0 d1 d2 d3 u).fab = b.fab := rfl
@[simp] theorem raise_opt (b : Block) (src cls : Nat) (d0 d1 d2 d3 : Word) (u : FUnit) : (raise b src cls d0 d1 d2 d3 u).opt = b.opt := rfl
@[simp] theorem raise_host (b : Block) (src cls : Nat) (d0 d1 d2 d3 : Word) (u : FUnit) : (raise b src cls d0 d1 d2 d3 u).host = b.host := rfl
@[simp] theorem raise_sess (b : Block) (src cls : Nat) (d0 d1 d2 d3 : Word) (u : FUnit) : (raise b src cls d0 d1 d2 d3 u).sess = b.sess := rfl
@[simp] theorem raise_flt (b : Block) (src cls : Nat) (d0 d1 d2 d3 : Word) (u : FUnit) : (raise b src cls d0 d1 d2 d3 u).flt = b.flt := rfl
@[simp] theorem raise_pwr (b : Block) (src cls : Nat) (d0 d1 d2 d3 : Word) (u : FUnit) : (raise b src cls d0 d1 d2 d3 u).pwr = b.pwr := rfl
@[simp] theorem raise_pair (b : Block) (src cls : Nat) (d0 d1 d2 d3 : Word) (u : FUnit) : (raise b src cls d0 d1 d2 d3 u).pair = b.pair := rfl
@[simp] theorem raise_sec (b : Block) (src cls : Nat) (d0 d1 d2 d3 : Word) (u : FUnit) : (raise b src cls d0 d1 d2 d3 u).sec = b.sec := rfl
@[simp] theorem raise_mgmt (b : Block) (src cls : Nat) (d0 d1 d2 d3 : Word) (u : FUnit) : (raise b src cls d0 d1 d2 d3 u).mgmt = b.mgmt := rfl

/-! ### `hbmMod` -/

@[simp] theorem hbmMod_time (b : Block) (f : HbmS → HbmS) : (hbmMod b f).time = b.time := rfl
@[simp] theorem hbmMod_freeCtr (b : Block) (f : HbmS → HbmS) : (hbmMod b f).freeCtr = b.freeCtr := rfl
@[simp] theorem hbmMod_die (b : Block) (f : HbmS → HbmS) : (hbmMod b f).die = b.die := rfl
@[simp] theorem hbmMod_pads (b : Block) (f : HbmS → HbmS) : (hbmMod b f).pads = b.pads := rfl
@[simp] theorem hbmMod_retired (b : Block) (f : HbmS → HbmS) : (hbmMod b f).retired = b.retired := rfl
@[simp] theorem hbmMod_reports (b : Block) (f : HbmS → HbmS) : (hbmMod b f).reports = b.reports := rfl
@[simp] theorem hbmMod_regs (b : Block) (f : HbmS → HbmS) : (hbmMod b f).regs = b.regs := rfl
@[simp] theorem hbmMod_out (b : Block) (f : HbmS → HbmS) : (hbmMod b f).out = b.out := rfl
@[simp] theorem hbmMod_hbm (b : Block) (f : HbmS → HbmS) : (hbmMod b f).hbm = f b.hbm := rfl
@[simp] theorem hbmMod_lnk (b : Block) (f : HbmS → HbmS) : (hbmMod b f).lnk = b.lnk := rfl
@[simp] theorem hbmMod_fab (b : Block) (f : HbmS → HbmS) : (hbmMod b f).fab = b.fab := rfl
@[simp] theorem hbmMod_opt (b : Block) (f : HbmS → HbmS) : (hbmMod b f).opt = b.opt := rfl
@[simp] theorem hbmMod_host (b : Block) (f : HbmS → HbmS) : (hbmMod b f).host = b.host := rfl
@[simp] theorem hbmMod_sess (b : Block) (f : HbmS → HbmS) : (hbmMod b f).sess = b.sess := rfl
@[simp] theorem hbmMod_flt (b : Block) (f : HbmS → HbmS) : (hbmMod b f).flt = b.flt := rfl
@[simp] theorem hbmMod_pwr (b : Block) (f : HbmS → HbmS) : (hbmMod b f).pwr = b.pwr := rfl
@[simp] theorem hbmMod_pair (b : Block) (f : HbmS → HbmS) : (hbmMod b f).pair = b.pair := rfl
@[simp] theorem hbmMod_sec (b : Block) (f : HbmS → HbmS) : (hbmMod b f).sec = b.sec := rfl
@[simp] theorem hbmMod_mgmt (b : Block) (f : HbmS → HbmS) : (hbmMod b f).mgmt = b.mgmt := rfl

/-! ### `hostMod` -/

@[simp] theorem hostMod_time (b : Block) (f : HostS → HostS) : (hostMod b f).time = b.time := rfl
@[simp] theorem hostMod_freeCtr (b : Block) (f : HostS → HostS) : (hostMod b f).freeCtr = b.freeCtr := rfl
@[simp] theorem hostMod_die (b : Block) (f : HostS → HostS) : (hostMod b f).die = b.die := rfl
@[simp] theorem hostMod_pads (b : Block) (f : HostS → HostS) : (hostMod b f).pads = b.pads := rfl
@[simp] theorem hostMod_retired (b : Block) (f : HostS → HostS) : (hostMod b f).retired = b.retired := rfl
@[simp] theorem hostMod_reports (b : Block) (f : HostS → HostS) : (hostMod b f).reports = b.reports := rfl
@[simp] theorem hostMod_regs (b : Block) (f : HostS → HostS) : (hostMod b f).regs = b.regs := rfl
@[simp] theorem hostMod_out (b : Block) (f : HostS → HostS) : (hostMod b f).out = b.out := rfl
@[simp] theorem hostMod_hbm (b : Block) (f : HostS → HostS) : (hostMod b f).hbm = b.hbm := rfl
@[simp] theorem hostMod_lnk (b : Block) (f : HostS → HostS) : (hostMod b f).lnk = b.lnk := rfl
@[simp] theorem hostMod_fab (b : Block) (f : HostS → HostS) : (hostMod b f).fab = b.fab := rfl
@[simp] theorem hostMod_opt (b : Block) (f : HostS → HostS) : (hostMod b f).opt = b.opt := rfl
@[simp] theorem hostMod_host (b : Block) (f : HostS → HostS) : (hostMod b f).host = f b.host := rfl
@[simp] theorem hostMod_sess (b : Block) (f : HostS → HostS) : (hostMod b f).sess = b.sess := rfl
@[simp] theorem hostMod_flt (b : Block) (f : HostS → HostS) : (hostMod b f).flt = b.flt := rfl
@[simp] theorem hostMod_pwr (b : Block) (f : HostS → HostS) : (hostMod b f).pwr = b.pwr := rfl
@[simp] theorem hostMod_pair (b : Block) (f : HostS → HostS) : (hostMod b f).pair = b.pair := rfl
@[simp] theorem hostMod_sec (b : Block) (f : HostS → HostS) : (hostMod b f).sec = b.sec := rfl
@[simp] theorem hostMod_mgmt (b : Block) (f : HostS → HostS) : (hostMod b f).mgmt = b.mgmt := rfl

/-! ### `fltMod` -/

@[simp] theorem fltMod_time (b : Block) (f : FltS → FltS) : (fltMod b f).time = b.time := rfl
@[simp] theorem fltMod_freeCtr (b : Block) (f : FltS → FltS) : (fltMod b f).freeCtr = b.freeCtr := rfl
@[simp] theorem fltMod_die (b : Block) (f : FltS → FltS) : (fltMod b f).die = b.die := rfl
@[simp] theorem fltMod_pads (b : Block) (f : FltS → FltS) : (fltMod b f).pads = b.pads := rfl
@[simp] theorem fltMod_retired (b : Block) (f : FltS → FltS) : (fltMod b f).retired = b.retired := rfl
@[simp] theorem fltMod_reports (b : Block) (f : FltS → FltS) : (fltMod b f).reports = b.reports := rfl
@[simp] theorem fltMod_regs (b : Block) (f : FltS → FltS) : (fltMod b f).regs = b.regs := rfl
@[simp] theorem fltMod_out (b : Block) (f : FltS → FltS) : (fltMod b f).out = b.out := rfl
@[simp] theorem fltMod_hbm (b : Block) (f : FltS → FltS) : (fltMod b f).hbm = b.hbm := rfl
@[simp] theorem fltMod_lnk (b : Block) (f : FltS → FltS) : (fltMod b f).lnk = b.lnk := rfl
@[simp] theorem fltMod_fab (b : Block) (f : FltS → FltS) : (fltMod b f).fab = b.fab := rfl
@[simp] theorem fltMod_opt (b : Block) (f : FltS → FltS) : (fltMod b f).opt = b.opt := rfl
@[simp] theorem fltMod_host (b : Block) (f : FltS → FltS) : (fltMod b f).host = b.host := rfl
@[simp] theorem fltMod_sess (b : Block) (f : FltS → FltS) : (fltMod b f).sess = b.sess := rfl
@[simp] theorem fltMod_flt (b : Block) (f : FltS → FltS) : (fltMod b f).flt = f b.flt := rfl
@[simp] theorem fltMod_pwr (b : Block) (f : FltS → FltS) : (fltMod b f).pwr = b.pwr := rfl
@[simp] theorem fltMod_pair (b : Block) (f : FltS → FltS) : (fltMod b f).pair = b.pair := rfl
@[simp] theorem fltMod_sec (b : Block) (f : FltS → FltS) : (fltMod b f).sec = b.sec := rfl
@[simp] theorem fltMod_mgmt (b : Block) (f : FltS → FltS) : (fltMod b f).mgmt = b.mgmt := rfl

/-! ### `pwrMod` -/

@[simp] theorem pwrMod_time (b : Block) (f : PwrS → PwrS) : (pwrMod b f).time = b.time := rfl
@[simp] theorem pwrMod_freeCtr (b : Block) (f : PwrS → PwrS) : (pwrMod b f).freeCtr = b.freeCtr := rfl
@[simp] theorem pwrMod_die (b : Block) (f : PwrS → PwrS) : (pwrMod b f).die = b.die := rfl
@[simp] theorem pwrMod_pads (b : Block) (f : PwrS → PwrS) : (pwrMod b f).pads = b.pads := rfl
@[simp] theorem pwrMod_retired (b : Block) (f : PwrS → PwrS) : (pwrMod b f).retired = b.retired := rfl
@[simp] theorem pwrMod_reports (b : Block) (f : PwrS → PwrS) : (pwrMod b f).reports = b.reports := rfl
@[simp] theorem pwrMod_regs (b : Block) (f : PwrS → PwrS) : (pwrMod b f).regs = b.regs := rfl
@[simp] theorem pwrMod_out (b : Block) (f : PwrS → PwrS) : (pwrMod b f).out = b.out := rfl
@[simp] theorem pwrMod_hbm (b : Block) (f : PwrS → PwrS) : (pwrMod b f).hbm = b.hbm := rfl
@[simp] theorem pwrMod_lnk (b : Block) (f : PwrS → PwrS) : (pwrMod b f).lnk = b.lnk := rfl
@[simp] theorem pwrMod_fab (b : Block) (f : PwrS → PwrS) : (pwrMod b f).fab = b.fab := rfl
@[simp] theorem pwrMod_opt (b : Block) (f : PwrS → PwrS) : (pwrMod b f).opt = b.opt := rfl
@[simp] theorem pwrMod_host (b : Block) (f : PwrS → PwrS) : (pwrMod b f).host = b.host := rfl
@[simp] theorem pwrMod_sess (b : Block) (f : PwrS → PwrS) : (pwrMod b f).sess = b.sess := rfl
@[simp] theorem pwrMod_flt (b : Block) (f : PwrS → PwrS) : (pwrMod b f).flt = b.flt := rfl
@[simp] theorem pwrMod_pwr (b : Block) (f : PwrS → PwrS) : (pwrMod b f).pwr = f b.pwr := rfl
@[simp] theorem pwrMod_pair (b : Block) (f : PwrS → PwrS) : (pwrMod b f).pair = b.pair := rfl
@[simp] theorem pwrMod_sec (b : Block) (f : PwrS → PwrS) : (pwrMod b f).sec = b.sec := rfl
@[simp] theorem pwrMod_mgmt (b : Block) (f : PwrS → PwrS) : (pwrMod b f).mgmt = b.mgmt := rfl

/-! ### `pairMod` -/

@[simp] theorem pairMod_time (b : Block) (f : PairS → PairS) : (pairMod b f).time = b.time := rfl
@[simp] theorem pairMod_freeCtr (b : Block) (f : PairS → PairS) : (pairMod b f).freeCtr = b.freeCtr := rfl
@[simp] theorem pairMod_die (b : Block) (f : PairS → PairS) : (pairMod b f).die = b.die := rfl
@[simp] theorem pairMod_pads (b : Block) (f : PairS → PairS) : (pairMod b f).pads = b.pads := rfl
@[simp] theorem pairMod_retired (b : Block) (f : PairS → PairS) : (pairMod b f).retired = b.retired := rfl
@[simp] theorem pairMod_reports (b : Block) (f : PairS → PairS) : (pairMod b f).reports = b.reports := rfl
@[simp] theorem pairMod_regs (b : Block) (f : PairS → PairS) : (pairMod b f).regs = b.regs := rfl
@[simp] theorem pairMod_out (b : Block) (f : PairS → PairS) : (pairMod b f).out = b.out := rfl
@[simp] theorem pairMod_hbm (b : Block) (f : PairS → PairS) : (pairMod b f).hbm = b.hbm := rfl
@[simp] theorem pairMod_lnk (b : Block) (f : PairS → PairS) : (pairMod b f).lnk = b.lnk := rfl
@[simp] theorem pairMod_fab (b : Block) (f : PairS → PairS) : (pairMod b f).fab = b.fab := rfl
@[simp] theorem pairMod_opt (b : Block) (f : PairS → PairS) : (pairMod b f).opt = b.opt := rfl
@[simp] theorem pairMod_host (b : Block) (f : PairS → PairS) : (pairMod b f).host = b.host := rfl
@[simp] theorem pairMod_sess (b : Block) (f : PairS → PairS) : (pairMod b f).sess = b.sess := rfl
@[simp] theorem pairMod_flt (b : Block) (f : PairS → PairS) : (pairMod b f).flt = b.flt := rfl
@[simp] theorem pairMod_pwr (b : Block) (f : PairS → PairS) : (pairMod b f).pwr = b.pwr := rfl
@[simp] theorem pairMod_pair (b : Block) (f : PairS → PairS) : (pairMod b f).pair = f b.pair := rfl
@[simp] theorem pairMod_sec (b : Block) (f : PairS → PairS) : (pairMod b f).sec = b.sec := rfl
@[simp] theorem pairMod_mgmt (b : Block) (f : PairS → PairS) : (pairMod b f).mgmt = b.mgmt := rfl

/-! ### `secMod` -/

@[simp] theorem secMod_time (b : Block) (f : SecS → SecS) : (secMod b f).time = b.time := rfl
@[simp] theorem secMod_freeCtr (b : Block) (f : SecS → SecS) : (secMod b f).freeCtr = b.freeCtr := rfl
@[simp] theorem secMod_die (b : Block) (f : SecS → SecS) : (secMod b f).die = b.die := rfl
@[simp] theorem secMod_pads (b : Block) (f : SecS → SecS) : (secMod b f).pads = b.pads := rfl
@[simp] theorem secMod_retired (b : Block) (f : SecS → SecS) : (secMod b f).retired = b.retired := rfl
@[simp] theorem secMod_reports (b : Block) (f : SecS → SecS) : (secMod b f).reports = b.reports := rfl
@[simp] theorem secMod_regs (b : Block) (f : SecS → SecS) : (secMod b f).regs = b.regs := rfl
@[simp] theorem secMod_out (b : Block) (f : SecS → SecS) : (secMod b f).out = b.out := rfl
@[simp] theorem secMod_hbm (b : Block) (f : SecS → SecS) : (secMod b f).hbm = b.hbm := rfl
@[simp] theorem secMod_lnk (b : Block) (f : SecS → SecS) : (secMod b f).lnk = b.lnk := rfl
@[simp] theorem secMod_fab (b : Block) (f : SecS → SecS) : (secMod b f).fab = b.fab := rfl
@[simp] theorem secMod_opt (b : Block) (f : SecS → SecS) : (secMod b f).opt = b.opt := rfl
@[simp] theorem secMod_host (b : Block) (f : SecS → SecS) : (secMod b f).host = b.host := rfl
@[simp] theorem secMod_sess (b : Block) (f : SecS → SecS) : (secMod b f).sess = b.sess := rfl
@[simp] theorem secMod_flt (b : Block) (f : SecS → SecS) : (secMod b f).flt = b.flt := rfl
@[simp] theorem secMod_pwr (b : Block) (f : SecS → SecS) : (secMod b f).pwr = b.pwr := rfl
@[simp] theorem secMod_pair (b : Block) (f : SecS → SecS) : (secMod b f).pair = b.pair := rfl
@[simp] theorem secMod_sec (b : Block) (f : SecS → SecS) : (secMod b f).sec = f b.sec := rfl
@[simp] theorem secMod_mgmt (b : Block) (f : SecS → SecS) : (secMod b f).mgmt = b.mgmt := rfl

/-! ### `optMod` -/

@[simp] theorem optMod_time (b : Block) (f : OptS → OptS) : (optMod b f).time = b.time := rfl
@[simp] theorem optMod_freeCtr (b : Block) (f : OptS → OptS) : (optMod b f).freeCtr = b.freeCtr := rfl
@[simp] theorem optMod_die (b : Block) (f : OptS → OptS) : (optMod b f).die = b.die := rfl
@[simp] theorem optMod_pads (b : Block) (f : OptS → OptS) : (optMod b f).pads = b.pads := rfl
@[simp] theorem optMod_retired (b : Block) (f : OptS → OptS) : (optMod b f).retired = b.retired := rfl
@[simp] theorem optMod_reports (b : Block) (f : OptS → OptS) : (optMod b f).reports = b.reports := rfl
@[simp] theorem optMod_regs (b : Block) (f : OptS → OptS) : (optMod b f).regs = b.regs := rfl
@[simp] theorem optMod_out (b : Block) (f : OptS → OptS) : (optMod b f).out = b.out := rfl
@[simp] theorem optMod_hbm (b : Block) (f : OptS → OptS) : (optMod b f).hbm = b.hbm := rfl
@[simp] theorem optMod_lnk (b : Block) (f : OptS → OptS) : (optMod b f).lnk = b.lnk := rfl
@[simp] theorem optMod_fab (b : Block) (f : OptS → OptS) : (optMod b f).fab = b.fab := rfl
@[simp] theorem optMod_opt (b : Block) (f : OptS → OptS) : (optMod b f).opt = f b.opt := rfl
@[simp] theorem optMod_host (b : Block) (f : OptS → OptS) : (optMod b f).host = b.host := rfl
@[simp] theorem optMod_sess (b : Block) (f : OptS → OptS) : (optMod b f).sess = b.sess := rfl
@[simp] theorem optMod_flt (b : Block) (f : OptS → OptS) : (optMod b f).flt = b.flt := rfl
@[simp] theorem optMod_pwr (b : Block) (f : OptS → OptS) : (optMod b f).pwr = b.pwr := rfl
@[simp] theorem optMod_pair (b : Block) (f : OptS → OptS) : (optMod b f).pair = b.pair := rfl
@[simp] theorem optMod_sec (b : Block) (f : OptS → OptS) : (optMod b f).sec = b.sec := rfl
@[simp] theorem optMod_mgmt (b : Block) (f : OptS → OptS) : (optMod b f).mgmt = b.mgmt := rfl

/-! ### `fabMod` -/

@[simp] theorem fabMod_time (b : Block) (f : FabS → FabS) : (fabMod b f).time = b.time := rfl
@[simp] theorem fabMod_freeCtr (b : Block) (f : FabS → FabS) : (fabMod b f).freeCtr = b.freeCtr := rfl
@[simp] theorem fabMod_die (b : Block) (f : FabS → FabS) : (fabMod b f).die = b.die := rfl
@[simp] theorem fabMod_pads (b : Block) (f : FabS → FabS) : (fabMod b f).pads = b.pads := rfl
@[simp] theorem fabMod_retired (b : Block) (f : FabS → FabS) : (fabMod b f).retired = b.retired := rfl
@[simp] theorem fabMod_reports (b : Block) (f : FabS → FabS) : (fabMod b f).reports = b.reports := rfl
@[simp] theorem fabMod_regs (b : Block) (f : FabS → FabS) : (fabMod b f).regs = b.regs := rfl
@[simp] theorem fabMod_out (b : Block) (f : FabS → FabS) : (fabMod b f).out = b.out := rfl
@[simp] theorem fabMod_hbm (b : Block) (f : FabS → FabS) : (fabMod b f).hbm = b.hbm := rfl
@[simp] theorem fabMod_lnk (b : Block) (f : FabS → FabS) : (fabMod b f).lnk = b.lnk := rfl
@[simp] theorem fabMod_fab (b : Block) (f : FabS → FabS) : (fabMod b f).fab = f b.fab := rfl
@[simp] theorem fabMod_opt (b : Block) (f : FabS → FabS) : (fabMod b f).opt = b.opt := rfl
@[simp] theorem fabMod_host (b : Block) (f : FabS → FabS) : (fabMod b f).host = b.host := rfl
@[simp] theorem fabMod_sess (b : Block) (f : FabS → FabS) : (fabMod b f).sess = b.sess := rfl
@[simp] theorem fabMod_flt (b : Block) (f : FabS → FabS) : (fabMod b f).flt = b.flt := rfl
@[simp] theorem fabMod_pwr (b : Block) (f : FabS → FabS) : (fabMod b f).pwr = b.pwr := rfl
@[simp] theorem fabMod_pair (b : Block) (f : FabS → FabS) : (fabMod b f).pair = b.pair := rfl
@[simp] theorem fabMod_sec (b : Block) (f : FabS → FabS) : (fabMod b f).sec = b.sec := rfl
@[simp] theorem fabMod_mgmt (b : Block) (f : FabS → FabS) : (fabMod b f).mgmt = b.mgmt := rfl

/-! ### `lpPut` -/

@[simp] theorem lpPut_time (b : Block) (p : Nat) (x : LPort) : (lpPut b p x).time = b.time := rfl
@[simp] theorem lpPut_freeCtr (b : Block) (p : Nat) (x : LPort) : (lpPut b p x).freeCtr = b.freeCtr := rfl
@[simp] theorem lpPut_die (b : Block) (p : Nat) (x : LPort) : (lpPut b p x).die = b.die := rfl
@[simp] theorem lpPut_pads (b : Block) (p : Nat) (x : LPort) : (lpPut b p x).pads = b.pads := rfl
@[simp] theorem lpPut_retired (b : Block) (p : Nat) (x : LPort) : (lpPut b p x).retired = b.retired := rfl
@[simp] theorem lpPut_reports (b : Block) (p : Nat) (x : LPort) : (lpPut b p x).reports = b.reports := rfl
@[simp] theorem lpPut_regs (b : Block) (p : Nat) (x : LPort) : (lpPut b p x).regs = b.regs := rfl
@[simp] theorem lpPut_out (b : Block) (p : Nat) (x : LPort) : (lpPut b p x).out = b.out := rfl
@[simp] theorem lpPut_hbm (b : Block) (p : Nat) (x : LPort) : (lpPut b p x).hbm = b.hbm := rfl
@[simp] theorem lpPut_lnk (b : Block) (p : Nat) (x : LPort) : (lpPut b p x).lnk = tput LPort.init b.lnk p x := rfl
@[simp] theorem lpPut_fab (b : Block) (p : Nat) (x : LPort) : (lpPut b p x).fab = b.fab := rfl
@[simp] theorem lpPut_opt (b : Block) (p : Nat) (x : LPort) : (lpPut b p x).opt = b.opt := rfl
@[simp] theorem lpPut_host (b : Block) (p : Nat) (x : LPort) : (lpPut b p x).host = b.host := rfl
@[simp] theorem lpPut_sess (b : Block) (p : Nat) (x : LPort) : (lpPut b p x).sess = b.sess := rfl
@[simp] theorem lpPut_flt (b : Block) (p : Nat) (x : LPort) : (lpPut b p x).flt = b.flt := rfl
@[simp] theorem lpPut_pwr (b : Block) (p : Nat) (x : LPort) : (lpPut b p x).pwr = b.pwr := rfl
@[simp] theorem lpPut_pair (b : Block) (p : Nat) (x : LPort) : (lpPut b p x).pair = b.pair := rfl
@[simp] theorem lpPut_sec (b : Block) (p : Nat) (x : LPort) : (lpPut b p x).sec = b.sec := rfl
@[simp] theorem lpPut_mgmt (b : Block) (p : Nat) (x : LPort) : (lpPut b p x).mgmt = b.mgmt := rfl

/-! ### `slotPut` -/

@[simp] theorem slotPut_time (b : Block) (n : Nat) (z : Slot) : (slotPut b n z).time = b.time := rfl
@[simp] theorem slotPut_freeCtr (b : Block) (n : Nat) (z : Slot) : (slotPut b n z).freeCtr = b.freeCtr := rfl
@[simp] theorem slotPut_die (b : Block) (n : Nat) (z : Slot) : (slotPut b n z).die = b.die := rfl
@[simp] theorem slotPut_pads (b : Block) (n : Nat) (z : Slot) : (slotPut b n z).pads = b.pads := rfl
@[simp] theorem slotPut_retired (b : Block) (n : Nat) (z : Slot) : (slotPut b n z).retired = b.retired := rfl
@[simp] theorem slotPut_reports (b : Block) (n : Nat) (z : Slot) : (slotPut b n z).reports = b.reports := rfl
@[simp] theorem slotPut_regs (b : Block) (n : Nat) (z : Slot) : (slotPut b n z).regs = b.regs := rfl
@[simp] theorem slotPut_out (b : Block) (n : Nat) (z : Slot) : (slotPut b n z).out = b.out := rfl
@[simp] theorem slotPut_hbm (b : Block) (n : Nat) (z : Slot) : (slotPut b n z).hbm = b.hbm := rfl
@[simp] theorem slotPut_lnk (b : Block) (n : Nat) (z : Slot) : (slotPut b n z).lnk = b.lnk := rfl
@[simp] theorem slotPut_fab (b : Block) (n : Nat) (z : Slot) : (slotPut b n z).fab = b.fab := rfl
@[simp] theorem slotPut_opt (b : Block) (n : Nat) (z : Slot) : (slotPut b n z).opt = b.opt := rfl
@[simp] theorem slotPut_host (b : Block) (n : Nat) (z : Slot) : (slotPut b n z).host = b.host := rfl
@[simp] theorem slotPut_sess (b : Block) (n : Nat) (z : Slot) : (slotPut b n z).sess = { b.sess with slots := tput Slot.free b.sess.slots n z } := rfl
@[simp] theorem slotPut_flt (b : Block) (n : Nat) (z : Slot) : (slotPut b n z).flt = b.flt := rfl
@[simp] theorem slotPut_pwr (b : Block) (n : Nat) (z : Slot) : (slotPut b n z).pwr = b.pwr := rfl
@[simp] theorem slotPut_pair (b : Block) (n : Nat) (z : Slot) : (slotPut b n z).pair = b.pair := rfl
@[simp] theorem slotPut_sec (b : Block) (n : Nat) (z : Slot) : (slotPut b n z).sec = b.sec := rfl
@[simp] theorem slotPut_mgmt (b : Block) (n : Nat) (z : Slot) : (slotPut b n z).mgmt = b.mgmt := rfl

/-! ### `rpPut` -/

@[simp] theorem rpPut_time (b : Block) (q : Nat) (x : RPair) : (rpPut b q x).time = b.time := rfl
@[simp] theorem rpPut_freeCtr (b : Block) (q : Nat) (x : RPair) : (rpPut b q x).freeCtr = b.freeCtr := rfl
@[simp] theorem rpPut_die (b : Block) (q : Nat) (x : RPair) : (rpPut b q x).die = b.die := rfl
@[simp] theorem rpPut_pads (b : Block) (q : Nat) (x : RPair) : (rpPut b q x).pads = b.pads := rfl
@[simp] theorem rpPut_retired (b : Block) (q : Nat) (x : RPair) : (rpPut b q x).retired = b.retired := rfl
@[simp] theorem rpPut_reports (b : Block) (q : Nat) (x : RPair) : (rpPut b q x).reports = b.reports := rfl
@[simp] theorem rpPut_regs (b : Block) (q : Nat) (x : RPair) : (rpPut b q x).regs = b.regs := rfl
@[simp] theorem rpPut_out (b : Block) (q : Nat) (x : RPair) : (rpPut b q x).out = b.out := rfl
@[simp] theorem rpPut_hbm (b : Block) (q : Nat) (x : RPair) : (rpPut b q x).hbm = b.hbm := rfl
@[simp] theorem rpPut_lnk (b : Block) (q : Nat) (x : RPair) : (rpPut b q x).lnk = b.lnk := rfl
@[simp] theorem rpPut_fab (b : Block) (q : Nat) (x : RPair) : (rpPut b q x).fab = b.fab := rfl
@[simp] theorem rpPut_opt (b : Block) (q : Nat) (x : RPair) : (rpPut b q x).opt = b.opt := rfl
@[simp] theorem rpPut_host (b : Block) (q : Nat) (x : RPair) : (rpPut b q x).host = { b.host with pairs := tput RPair.init b.host.pairs q x } := rfl
@[simp] theorem rpPut_sess (b : Block) (q : Nat) (x : RPair) : (rpPut b q x).sess = b.sess := rfl
@[simp] theorem rpPut_flt (b : Block) (q : Nat) (x : RPair) : (rpPut b q x).flt = b.flt := rfl
@[simp] theorem rpPut_pwr (b : Block) (q : Nat) (x : RPair) : (rpPut b q x).pwr = b.pwr := rfl
@[simp] theorem rpPut_pair (b : Block) (q : Nat) (x : RPair) : (rpPut b q x).pair = b.pair := rfl
@[simp] theorem rpPut_sec (b : Block) (q : Nat) (x : RPair) : (rpPut b q x).sec = b.sec := rfl
@[simp] theorem rpPut_mgmt (b : Block) (q : Nat) (x : RPair) : (rpPut b q x).mgmt = b.mgmt := rfl

/-! ### `latchPut` -/

@[simp] theorem latchPut_time (b : Block) (k : Nat) (v : Option Word) : (latchPut b k v).time = b.time := rfl
@[simp] theorem latchPut_freeCtr (b : Block) (k : Nat) (v : Option Word) : (latchPut b k v).freeCtr = b.freeCtr := rfl
@[simp] theorem latchPut_die (b : Block) (k : Nat) (v : Option Word) : (latchPut b k v).die = b.die := rfl
@[simp] theorem latchPut_pads (b : Block) (k : Nat) (v : Option Word) : (latchPut b k v).pads = b.pads := rfl
@[simp] theorem latchPut_retired (b : Block) (k : Nat) (v : Option Word) : (latchPut b k v).retired = b.retired := rfl
@[simp] theorem latchPut_reports (b : Block) (k : Nat) (v : Option Word) : (latchPut b k v).reports = b.reports := rfl
@[simp] theorem latchPut_regs (b : Block) (k : Nat) (v : Option Word) : (latchPut b k v).regs = b.regs := rfl
@[simp] theorem latchPut_out (b : Block) (k : Nat) (v : Option Word) : (latchPut b k v).out = b.out := rfl
@[simp] theorem latchPut_hbm (b : Block) (k : Nat) (v : Option Word) : (latchPut b k v).hbm = b.hbm := rfl
@[simp] theorem latchPut_lnk (b : Block) (k : Nat) (v : Option Word) : (latchPut b k v).lnk = b.lnk := rfl
@[simp] theorem latchPut_fab (b : Block) (k : Nat) (v : Option Word) : (latchPut b k v).fab = b.fab := rfl
@[simp] theorem latchPut_opt (b : Block) (k : Nat) (v : Option Word) : (latchPut b k v).opt = b.opt := rfl
@[simp] theorem latchPut_host (b : Block) (k : Nat) (v : Option Word) : (latchPut b k v).host = b.host := rfl
@[simp] theorem latchPut_sess (b : Block) (k : Nat) (v : Option Word) : (latchPut b k v).sess = b.sess := rfl
@[simp] theorem latchPut_flt (b : Block) (k : Nat) (v : Option Word) : (latchPut b k v).flt = b.flt := rfl
@[simp] theorem latchPut_pwr (b : Block) (k : Nat) (v : Option Word) : (latchPut b k v).pwr = b.pwr := rfl
@[simp] theorem latchPut_pair (b : Block) (k : Nat) (v : Option Word) : (latchPut b k v).pair = b.pair := rfl
@[simp] theorem latchPut_sec (b : Block) (k : Nat) (v : Option Word) : (latchPut b k v).sec = b.sec := rfl
@[simp] theorem latchPut_mgmt (b : Block) (k : Nat) (v : Option Word) : (latchPut b k v).mgmt = { b.mgmt with latch := tput none b.mgmt.latch k v } := rfl

/-! ### `lanePut` -/

@[simp] theorem lanePut_time (b : Block) (p : Nat) (rx : Bool) (k : Nat) (x : Lane) : (lanePut b p rx k x).time = b.time := rfl
@[simp] theorem lanePut_freeCtr (b : Block) (p : Nat) (rx : Bool) (k : Nat) (x : Lane) : (lanePut b p rx k x).freeCtr = b.freeCtr := rfl
@[simp] theorem lanePut_die (b : Block) (p : Nat) (rx : Bool) (k : Nat) (x : Lane) : (lanePut b p rx k x).die = b.die := rfl
@[simp] theorem lanePut_pads (b : Block) (p : Nat) (rx : Bool) (k : Nat) (x : Lane) : (lanePut b p rx k x).pads = b.pads := rfl
@[simp] theorem lanePut_retired (b : Block) (p : Nat) (rx : Bool) (k : Nat) (x : Lane) : (lanePut b p rx k x).retired = b.retired := rfl
@[simp] theorem lanePut_reports (b : Block) (p : Nat) (rx : Bool) (k : Nat) (x : Lane) : (lanePut b p rx k x).reports = b.reports := rfl
@[simp] theorem lanePut_regs (b : Block) (p : Nat) (rx : Bool) (k : Nat) (x : Lane) : (lanePut b p rx k x).regs = b.regs := rfl
@[simp] theorem lanePut_out (b : Block) (p : Nat) (rx : Bool) (k : Nat) (x : Lane) : (lanePut b p rx k x).out = b.out := rfl
@[simp] theorem lanePut_hbm (b : Block) (p : Nat) (rx : Bool) (k : Nat) (x : Lane) : (lanePut b p rx k x).hbm = b.hbm := rfl
@[simp] theorem lanePut_lnk (b : Block) (p : Nat) (rx : Bool) (k : Nat) (x : Lane) : (lanePut b p rx k x).lnk = b.lnk := rfl
@[simp] theorem lanePut_fab (b : Block) (p : Nat) (rx : Bool) (k : Nat) (x : Lane) : (lanePut b p rx k x).fab = b.fab := rfl
@[simp] theorem lanePut_opt (b : Block) (p : Nat) (rx : Bool) (k : Nat) (x : Lane) : (lanePut b p rx k x).opt = { b.opt with lanes := tput Lane.init b.opt.lanes (36 * p + 18 * dirOf rx + k) x } := rfl
@[simp] theorem lanePut_host (b : Block) (p : Nat) (rx : Bool) (k : Nat) (x : Lane) : (lanePut b p rx k x).host = b.host := rfl
@[simp] theorem lanePut_sess (b : Block) (p : Nat) (rx : Bool) (k : Nat) (x : Lane) : (lanePut b p rx k x).sess = b.sess := rfl
@[simp] theorem lanePut_flt (b : Block) (p : Nat) (rx : Bool) (k : Nat) (x : Lane) : (lanePut b p rx k x).flt = b.flt := rfl
@[simp] theorem lanePut_pwr (b : Block) (p : Nat) (rx : Bool) (k : Nat) (x : Lane) : (lanePut b p rx k x).pwr = b.pwr := rfl
@[simp] theorem lanePut_pair (b : Block) (p : Nat) (rx : Bool) (k : Nat) (x : Lane) : (lanePut b p rx k x).pair = b.pair := rfl
@[simp] theorem lanePut_sec (b : Block) (p : Nat) (rx : Bool) (k : Nat) (x : Lane) : (lanePut b p rx k x).sec = b.sec := rfl
@[simp] theorem lanePut_mgmt (b : Block) (p : Nat) (rx : Bool) (k : Nat) (x : Lane) : (lanePut b p rx k x).mgmt = b.mgmt := rfl

/-! ### `opMod` -/

@[simp] theorem opMod_time (b : Block) (p : Nat) (f : OPort → OPort) : (opMod b p f).time = b.time := rfl
@[simp] theorem opMod_freeCtr (b : Block) (p : Nat) (f : OPort → OPort) : (opMod b p f).freeCtr = b.freeCtr := rfl
@[simp] theorem opMod_die (b : Block) (p : Nat) (f : OPort → OPort) : (opMod b p f).die = b.die := rfl
@[simp] theorem opMod_pads (b : Block) (p : Nat) (f : OPort → OPort) : (opMod b p f).pads = b.pads := rfl
@[simp] theorem opMod_retired (b : Block) (p : Nat) (f : OPort → OPort) : (opMod b p f).retired = b.retired := rfl
@[simp] theorem opMod_reports (b : Block) (p : Nat) (f : OPort → OPort) : (opMod b p f).reports = b.reports := rfl
@[simp] theorem opMod_regs (b : Block) (p : Nat) (f : OPort → OPort) : (opMod b p f).regs = b.regs := rfl
@[simp] theorem opMod_out (b : Block) (p : Nat) (f : OPort → OPort) : (opMod b p f).out = b.out := rfl
@[simp] theorem opMod_hbm (b : Block) (p : Nat) (f : OPort → OPort) : (opMod b p f).hbm = b.hbm := rfl
@[simp] theorem opMod_lnk (b : Block) (p : Nat) (f : OPort → OPort) : (opMod b p f).lnk = b.lnk := rfl
@[simp] theorem opMod_fab (b : Block) (p : Nat) (f : OPort → OPort) : (opMod b p f).fab = b.fab := rfl
@[simp] theorem opMod_opt (b : Block) (p : Nat) (f : OPort → OPort) : (opMod b p f).opt = { b.opt with ports := tput OPort.init b.opt.ports p (f (opGet b p)) } := rfl
@[simp] theorem opMod_host (b : Block) (p : Nat) (f : OPort → OPort) : (opMod b p f).host = b.host := rfl
@[simp] theorem opMod_sess (b : Block) (p : Nat) (f : OPort → OPort) : (opMod b p f).sess = b.sess := rfl
@[simp] theorem opMod_flt (b : Block) (p : Nat) (f : OPort → OPort) : (opMod b p f).flt = b.flt := rfl
@[simp] theorem opMod_pwr (b : Block) (p : Nat) (f : OPort → OPort) : (opMod b p f).pwr = b.pwr := rfl
@[simp] theorem opMod_pair (b : Block) (p : Nat) (f : OPort → OPort) : (opMod b p f).pair = b.pair := rfl
@[simp] theorem opMod_sec (b : Block) (p : Nat) (f : OPort → OPort) : (opMod b p f).sec = b.sec := rfl
@[simp] theorem opMod_mgmt (b : Block) (p : Nat) (f : OPort → OPort) : (opMod b p f).mgmt = b.mgmt := rfl

/-! ### `engMod` -/

@[simp] theorem engMod_time (b : Block) (n : Nat) (f : Eng → Eng) : (engMod b n f).time = b.time := rfl
@[simp] theorem engMod_freeCtr (b : Block) (n : Nat) (f : Eng → Eng) : (engMod b n f).freeCtr = b.freeCtr := rfl
@[simp] theorem engMod_die (b : Block) (n : Nat) (f : Eng → Eng) : (engMod b n f).die = b.die := rfl
@[simp] theorem engMod_pads (b : Block) (n : Nat) (f : Eng → Eng) : (engMod b n f).pads = b.pads := rfl
@[simp] theorem engMod_retired (b : Block) (n : Nat) (f : Eng → Eng) : (engMod b n f).retired = b.retired := rfl
@[simp] theorem engMod_reports (b : Block) (n : Nat) (f : Eng → Eng) : (engMod b n f).reports = b.reports := rfl
@[simp] theorem engMod_regs (b : Block) (n : Nat) (f : Eng → Eng) : (engMod b n f).regs = b.regs := rfl
@[simp] theorem engMod_out (b : Block) (n : Nat) (f : Eng → Eng) : (engMod b n f).out = b.out := rfl
@[simp] theorem engMod_hbm (b : Block) (n : Nat) (f : Eng → Eng) : (engMod b n f).hbm = b.hbm := rfl
@[simp] theorem engMod_lnk (b : Block) (n : Nat) (f : Eng → Eng) : (engMod b n f).lnk = b.lnk := rfl
@[simp] theorem engMod_fab (b : Block) (n : Nat) (f : Eng → Eng) : (engMod b n f).fab = b.fab := rfl
@[simp] theorem engMod_opt (b : Block) (n : Nat) (f : Eng → Eng) : (engMod b n f).opt = { b.opt with eng := tput Eng.init b.opt.eng n (f (engGet b n)) } := rfl
@[simp] theorem engMod_host (b : Block) (n : Nat) (f : Eng → Eng) : (engMod b n f).host = b.host := rfl
@[simp] theorem engMod_sess (b : Block) (n : Nat) (f : Eng → Eng) : (engMod b n f).sess = b.sess := rfl
@[simp] theorem engMod_flt (b : Block) (n : Nat) (f : Eng → Eng) : (engMod b n f).flt = b.flt := rfl
@[simp] theorem engMod_pwr (b : Block) (n : Nat) (f : Eng → Eng) : (engMod b n f).pwr = b.pwr := rfl
@[simp] theorem engMod_pair (b : Block) (n : Nat) (f : Eng → Eng) : (engMod b n f).pair = b.pair := rfl
@[simp] theorem engMod_sec (b : Block) (n : Nat) (f : Eng → Eng) : (engMod b n f).sec = b.sec := rfl
@[simp] theorem engMod_mgmt (b : Block) (n : Nat) (f : Eng → Eng) : (engMod b n f).mgmt = b.mgmt := rfl

/-! ### `fpPut` -/

@[simp] theorem fpPut_time (b : Block) (l : Nat) (x : FPort) : (fpPut b l x).time = b.time := rfl
@[simp] theorem fpPut_freeCtr (b : Block) (l : Nat) (x : FPort) : (fpPut b l x).freeCtr = b.freeCtr := rfl
@[simp] theorem fpPut_die (b : Block) (l : Nat) (x : FPort) : (fpPut b l x).die = b.die := rfl
@[simp] theorem fpPut_pads (b : Block) (l : Nat) (x : FPort) : (fpPut b l x).pads = b.pads := rfl
@[simp] theorem fpPut_retired (b : Block) (l : Nat) (x : FPort) : (fpPut b l x).retired = b.retired := rfl
@[simp] theorem fpPut_reports (b : Block) (l : Nat) (x : FPort) : (fpPut b l x).reports = b.reports := rfl
@[simp] theorem fpPut_regs (b : Block) (l : Nat) (x : FPort) : (fpPut b l x).regs = b.regs := rfl
@[simp] theorem fpPut_out (b : Block) (l : Nat) (x : FPort) : (fpPut b l x).out = b.out := rfl
@[simp] theorem fpPut_hbm (b : Block) (l : Nat) (x : FPort) : (fpPut b l x).hbm = b.hbm := rfl
@[simp] theorem fpPut_lnk (b : Block) (l : Nat) (x : FPort) : (fpPut b l x).lnk = b.lnk := rfl
@[simp] theorem fpPut_fab (b : Block) (l : Nat) (x : FPort) : (fpPut b l x).fab = { b.fab with ports := tput FPort.init b.fab.ports l x } := rfl
@[simp] theorem fpPut_opt (b : Block) (l : Nat) (x : FPort) : (fpPut b l x).opt = b.opt := rfl
@[simp] theorem fpPut_host (b : Block) (l : Nat) (x : FPort) : (fpPut b l x).host = b.host := rfl
@[simp] theorem fpPut_sess (b : Block) (l : Nat) (x : FPort) : (fpPut b l x).sess = b.sess := rfl
@[simp] theorem fpPut_flt (b : Block) (l : Nat) (x : FPort) : (fpPut b l x).flt = b.flt := rfl
@[simp] theorem fpPut_pwr (b : Block) (l : Nat) (x : FPort) : (fpPut b l x).pwr = b.pwr := rfl
@[simp] theorem fpPut_pair (b : Block) (l : Nat) (x : FPort) : (fpPut b l x).pair = b.pair := rfl
@[simp] theorem fpPut_sec (b : Block) (l : Nat) (x : FPort) : (fpPut b l x).sec = b.sec := rfl
@[simp] theorem fpPut_mgmt (b : Block) (l : Nat) (x : FPort) : (fpPut b l x).mgmt = b.mgmt := rfl

/-! ### `flowPut` -/

@[simp] theorem flowPut_time (b : Block) (n : Nat) (x : Option Flow) : (flowPut b n x).time = b.time := rfl
@[simp] theorem flowPut_freeCtr (b : Block) (n : Nat) (x : Option Flow) : (flowPut b n x).freeCtr = b.freeCtr := rfl
@[simp] theorem flowPut_die (b : Block) (n : Nat) (x : Option Flow) : (flowPut b n x).die = b.die := rfl
@[simp] theorem flowPut_pads (b : Block) (n : Nat) (x : Option Flow) : (flowPut b n x).pads = b.pads := rfl
@[simp] theorem flowPut_retired (b : Block) (n : Nat) (x : Option Flow) : (flowPut b n x).retired = b.retired := rfl
@[simp] theorem flowPut_reports (b : Block) (n : Nat) (x : Option Flow) : (flowPut b n x).reports = b.reports := rfl
@[simp] theorem flowPut_regs (b : Block) (n : Nat) (x : Option Flow) : (flowPut b n x).regs = b.regs := rfl
@[simp] theorem flowPut_out (b : Block) (n : Nat) (x : Option Flow) : (flowPut b n x).out = b.out := rfl
@[simp] theorem flowPut_hbm (b : Block) (n : Nat) (x : Option Flow) : (flowPut b n x).hbm = b.hbm := rfl
@[simp] theorem flowPut_lnk (b : Block) (n : Nat) (x : Option Flow) : (flowPut b n x).lnk = b.lnk := rfl
@[simp] theorem flowPut_fab (b : Block) (n : Nat) (x : Option Flow) : (flowPut b n x).fab = { b.fab with flows := tput none b.fab.flows n x } := rfl
@[simp] theorem flowPut_opt (b : Block) (n : Nat) (x : Option Flow) : (flowPut b n x).opt = b.opt := rfl
@[simp] theorem flowPut_host (b : Block) (n : Nat) (x : Option Flow) : (flowPut b n x).host = b.host := rfl
@[simp] theorem flowPut_sess (b : Block) (n : Nat) (x : Option Flow) : (flowPut b n x).sess = b.sess := rfl
@[simp] theorem flowPut_flt (b : Block) (n : Nat) (x : Option Flow) : (flowPut b n x).flt = b.flt := rfl
@[simp] theorem flowPut_pwr (b : Block) (n : Nat) (x : Option Flow) : (flowPut b n x).pwr = b.pwr := rfl
@[simp] theorem flowPut_pair (b : Block) (n : Nat) (x : Option Flow) : (flowPut b n x).pair = b.pair := rfl
@[simp] theorem flowPut_sec (b : Block) (n : Nat) (x : Option Flow) : (flowPut b n x).sec = b.sec := rfl
@[simp] theorem flowPut_mgmt (b : Block) (n : Nat) (x : Option Flow) : (flowPut b n x).mgmt = b.mgmt := rfl

/-! ### `stagePut` -/

@[simp] theorem stagePut_time (b : Block) (n : Nat) (g : Option Stage) : (stagePut b n g).time = b.time := rfl
@[simp] theorem stagePut_freeCtr (b : Block) (n : Nat) (g : Option Stage) : (stagePut b n g).freeCtr = b.freeCtr := rfl
@[simp] theorem stagePut_die (b : Block) (n : Nat) (g : Option Stage) : (stagePut b n g).die = b.die := rfl
@[simp] theorem stagePut_pads (b : Block) (n : Nat) (g : Option Stage) : (stagePut b n g).pads = b.pads := rfl
@[simp] theorem stagePut_retired (b : Block) (n : Nat) (g : Option Stage) : (stagePut b n g).retired = b.retired := rfl
@[simp] theorem stagePut_reports (b : Block) (n : Nat) (g : Option Stage) : (stagePut b n g).reports = b.reports := rfl
@[simp] theorem stagePut_regs (b : Block) (n : Nat) (g : Option Stage) : (stagePut b n g).regs = b.regs := rfl
@[simp] theorem stagePut_out (b : Block) (n : Nat) (g : Option Stage) : (stagePut b n g).out = b.out := rfl
@[simp] theorem stagePut_hbm (b : Block) (n : Nat) (g : Option Stage) : (stagePut b n g).hbm = { b.hbm with stages := tput none b.hbm.stages n g } := rfl
@[simp] theorem stagePut_lnk (b : Block) (n : Nat) (g : Option Stage) : (stagePut b n g).lnk = b.lnk := rfl
@[simp] theorem stagePut_fab (b : Block) (n : Nat) (g : Option Stage) : (stagePut b n g).fab = b.fab := rfl
@[simp] theorem stagePut_opt (b : Block) (n : Nat) (g : Option Stage) : (stagePut b n g).opt = b.opt := rfl
@[simp] theorem stagePut_host (b : Block) (n : Nat) (g : Option Stage) : (stagePut b n g).host = b.host := rfl
@[simp] theorem stagePut_sess (b : Block) (n : Nat) (g : Option Stage) : (stagePut b n g).sess = b.sess := rfl
@[simp] theorem stagePut_flt (b : Block) (n : Nat) (g : Option Stage) : (stagePut b n g).flt = b.flt := rfl
@[simp] theorem stagePut_pwr (b : Block) (n : Nat) (g : Option Stage) : (stagePut b n g).pwr = b.pwr := rfl
@[simp] theorem stagePut_pair (b : Block) (n : Nat) (g : Option Stage) : (stagePut b n g).pair = b.pair := rfl
@[simp] theorem stagePut_sec (b : Block) (n : Nat) (g : Option Stage) : (stagePut b n g).sec = b.sec := rfl
@[simp] theorem stagePut_mgmt (b : Block) (n : Nat) (g : Option Stage) : (stagePut b n g).mgmt = b.mgmt := rfl

/-! ### `vecPut` -/

@[simp] theorem vecPut_time (b : Block) (v : Nat) (x : Vec) : (vecPut b v x).time = b.time := rfl
@[simp] theorem vecPut_freeCtr (b : Block) (v : Nat) (x : Vec) : (vecPut b v x).freeCtr = b.freeCtr := rfl
@[simp] theorem vecPut_die (b : Block) (v : Nat) (x : Vec) : (vecPut b v x).die = b.die := rfl
@[simp] theorem vecPut_pads (b : Block) (v : Nat) (x : Vec) : (vecPut b v x).pads = b.pads := rfl
@[simp] theorem vecPut_retired (b : Block) (v : Nat) (x : Vec) : (vecPut b v x).retired = b.retired := rfl
@[simp] theorem vecPut_reports (b : Block) (v : Nat) (x : Vec) : (vecPut b v x).reports = b.reports := rfl
@[simp] theorem vecPut_regs (b : Block) (v : Nat) (x : Vec) : (vecPut b v x).regs = b.regs := rfl
@[simp] theorem vecPut_out (b : Block) (v : Nat) (x : Vec) : (vecPut b v x).out = b.out := rfl
@[simp] theorem vecPut_hbm (b : Block) (v : Nat) (x : Vec) : (vecPut b v x).hbm = b.hbm := rfl
@[simp] theorem vecPut_lnk (b : Block) (v : Nat) (x : Vec) : (vecPut b v x).lnk = b.lnk := rfl
@[simp] theorem vecPut_fab (b : Block) (v : Nat) (x : Vec) : (vecPut b v x).fab = b.fab := rfl
@[simp] theorem vecPut_opt (b : Block) (v : Nat) (x : Vec) : (vecPut b v x).opt = b.opt := rfl
@[simp] theorem vecPut_host (b : Block) (v : Nat) (x : Vec) : (vecPut b v x).host = { b.host with vecs := tput Vec.init b.host.vecs v x } := rfl
@[simp] theorem vecPut_sess (b : Block) (v : Nat) (x : Vec) : (vecPut b v x).sess = b.sess := rfl
@[simp] theorem vecPut_flt (b : Block) (v : Nat) (x : Vec) : (vecPut b v x).flt = b.flt := rfl
@[simp] theorem vecPut_pwr (b : Block) (v : Nat) (x : Vec) : (vecPut b v x).pwr = b.pwr := rfl
@[simp] theorem vecPut_pair (b : Block) (v : Nat) (x : Vec) : (vecPut b v x).pair = b.pair := rfl
@[simp] theorem vecPut_sec (b : Block) (v : Nat) (x : Vec) : (vecPut b v x).sec = b.sec := rfl
@[simp] theorem vecPut_mgmt (b : Block) (v : Nat) (x : Vec) : (vecPut b v x).mgmt = b.mgmt := rfl

/-! ### Reads after writes -/

@[simp] theorem opGet_opMod (b : Block) (p q : Nat) (f : OPort → OPort) : opGet (opMod b p f) q = if q = p then f (opGet b p) else opGet b q :=
  tget_tput _ _ _ _ _

@[simp] theorem engGet_engMod (b : Block) (n m : Nat) (f : Eng → Eng) : engGet (engMod b n f) m = if m = n then f (engGet b n) else engGet b m :=
  tget_tput _ _ _ _ _

@[simp] theorem fpGet_fpPut (b : Block) (l m : Nat) (x : FPort) : fpGet (fpPut b l x) m = if m = l then x else fpGet b m :=
  tget_tput _ _ _ _ _

@[simp] theorem flowGet_flowPut (b : Block) (n m : Nat) (x : Option Flow) : flowGet (flowPut b n x) m = if m = n then x else flowGet b m :=
  tget_tput _ _ _ _ _

@[simp] theorem stageGet_stagePut (b : Block) (n m : Nat) (g : Option Stage) : stageGet (stagePut b n g) m = if m = n then g else stageGet b m :=
  tget_tput _ _ _ _ _

@[simp] theorem segGet_segPut (b : Block) (k j : Nat) (x : Seg) : segGet (segPut b k x) j = if j = k then x else segGet b j :=
  tget_tput _ _ _ _ _

@[simp] theorem vecGet_vecPut (b : Block) (v u : Nat) (x : Vec) : vecGet (vecPut b v x) u = if u = v then x else vecGet b u :=
  tget_tput _ _ _ _ _

/-- A lane reads what was written to it, and every lane of another key what it held. -/
theorem laneGet_lanePut (b : Block) (p q : Nat) (rx ry : Bool) (k j : Nat) (x : Lane) : laneGet (lanePut b p rx k x) q ry j =
    if 36 * q + 18 * dirOf ry + j = 36 * p + 18 * dirOf rx + k then x else laneGet b q ry j :=
  tget_tput _ _ _ _ _

@[simp] theorem thrGet_thrPut (b : Block) (k j : Nat) (x : Thread) : thrGet (thrPut b k x) j = if j = k then x else thrGet b j :=
  tget_tput _ _ _ _ _

@[simp] theorem coreGet_corePut (b : Block) (k j : Nat) (x : CoreS) : coreGet (corePut b k x) j = if j = k then x else coreGet b j :=
  tget_tput _ _ _ _ _

@[simp] theorem padGet_padPut (b : Block) (p q : Nat) (x : Pad) : padGet (padPut b p x) q = if q = p then x else padGet b q :=
  tget_tput _ _ _ _ _

@[simp] theorem regGet_regPut (b : Block) (o p : Nat) (v : Word) : regGet (regPut b o v) p = if p = o then v else regGet b p :=
  tget_tput _ _ _ _ _

@[simp] theorem lpGet_lpPut (b : Block) (p q : Nat) (x : LPort) : lpGet (lpPut b p x) q = if q = p then x else lpGet b q :=
  tget_tput _ _ _ _ _

@[simp] theorem slotGet_slotPut (b : Block) (n m : Nat) (z : Slot) : slotGet (slotPut b n z) m = if m = n then z else slotGet b m :=
  tget_tput _ _ _ _ _

@[simp] theorem rpGet_rpPut (b : Block) (q r : Nat) (x : RPair) : rpGet (rpPut b q x) r = if r = q then x else rpGet b r :=
  tget_tput _ _ _ _ _

@[simp] theorem thrGet_corePut (b : Block) (k j : Nat) (x : CoreS) : thrGet (corePut b k x) j = thrGet b j := rfl

@[simp] theorem coreGet_thrPut (b : Block) (k j : Nat) (x : Thread) : coreGet (thrPut b k x) j = coreGet b j := rfl

@[simp] theorem padGet_thrPut (b : Block) (k p : Nat) (x : Thread) : padGet (thrPut b k x) p = padGet b p := rfl

@[simp] theorem padGet_corePut (b : Block) (k p : Nat) (x : CoreS) : padGet (corePut b k x) p = padGet b p := rfl

@[simp] theorem regGet_emit (b : Block) (o : Out) (p : Nat) : regGet (emit b o) p = regGet b p := rfl

@[simp] theorem cline_thrPut (b : Block) (k ck l : Nat) (x : Thread) : cline (thrPut b k x) ck l = cline b ck l := rfl

@[simp] theorem cline_corePut (b : Block) (k ck l : Nat) (x : CoreS) : cline (corePut b k x) ck l = cline b ck l := rfl

/-- A scalar register reads what was written, but for s0 (R149). -/
theorem rs_ws (h : Thread) (d r : BitVec 5) (v : Word) : (h.ws d v).rs r = if r = 0 then 0 else if r = d then v else h.rs r := by
  unfold Thread.rs
  split
  · rfl
  · rename_i hr
    unfold Thread.ws
    by_cases hd : d = 0
    · rw [if_pos hd, if_neg (fun h => hr (h.trans hd))]
    · rw [if_neg hd]
      show tget 0 (tput 0 h.s d.toNat v) r.toNat = _
      rw [tget_tput]
      by_cases he : r = d
      · rw [if_pos he, if_pos (by rw [he])]
      · rw [if_neg he, if_neg (fun h => he (BitVec.eq_of_toNat_eq h))]

end Sys2Proof.Machine
end

