-- ==== Sys2Proof/Laws/Issue.lean ====
section
/-! SUPPORT. What the issue of a core command does, said once: the provers cite these instead of unfolding `issue`, `advance`,
`finish` and `jump`. -/

set_option Elab.async false

namespace Sys2Proof.Machine

theorem coreKey_thrKey (t : Thr) : thrKey t / 4 = coreKey t.core := by
  have := t.th.isLt
  unfold thrKey
  omega

theorem thrKey_mod (t : Thr) : thrKey t % 4 = t.th.val := by
  have := t.th.isLt
  unfold thrKey
  omega

theorem teamKey_thrKey (t : Thr) : thrKey t / 256 = teamKey t.core.team := by
  have := t.th.isLt
  have := t.core.cx.isLt
  unfold thrKey coreKey
  omega

/-- Two threads with one key are one thread. -/
theorem thrKey_inj (t u : Thr) (h : thrKey t = thrKey u) : t = u := by
  obtain ⟨⟨⟨a, b⟩, c⟩, d⟩ := t
  obtain ⟨⟨⟨a', b'⟩, c'⟩, d'⟩ := u
  simp only [thrKey, coreKey, teamKey] at h
  have := b.isLt; have := b'.isLt; have := c.isLt; have := c'.isLt; have := d.isLt; have := d'.isLt
  have h1 : a = a' := Fin.ext (by omega)
  have h2 : b = b' := Fin.ext (by omega)
  have h3 : c = c' := Fin.ext (by omega)
  have h4 : d = d' := Fin.ext (by omega)
  rw [h1, h2, h3, h4]

/-! ### Reads of the cistern without errors -/

/-- A read of a line without errors changes nothing and answers the line (R78). -/
theorem portRead_clean (b : Block) (ck l : Nat) (h : ∀ j < 8, wordErr b ck (8 * l + j) = 0) :
    portRead b ck l = (b, some (cline b ck l)) := by
  have hws : ∀ w ∈ (List.range 8).map (fun i => 8 * l + i), wordErr b ck w = 0 := by
    intro w hw
    obtain ⟨i, hi, rfl⟩ := List.mem_map.1 hw
    exact h i (List.mem_range.1 hi)
  have hlog : ∀ ws : List Nat, (∀ w ∈ ws, wordErr b ck w = 0) → logSingles b ck ws = b := by
    intro ws
    induction ws with
    | nil => intro _; rfl
    | cons w r ih =>
      intro hw
      unfold logSingles
      rw [List.foldl_cons, if_pos (hw w (List.mem_cons_self ..))]
      exact ih (fun v hv => hw v (List.mem_cons_of_mem _ hv))
  have hfind : ((List.range 8).map (fun i => 8 * l + i)).find? (fun w => decide (64 < wordErr b ck w)) = none := by
    rw [List.find?_eq_none]
    intro w hw
    simp [hws w hw]
  unfold portRead
  simp only [hfind, hlog _ hws]

/-- The fetch of an instruction whose line holds no error (R49). -/
theorem fetchWord_clean (b : Block) (t : Thr) (h : ∀ j < 8, wordErr b (coreKey t.core) (8 * ((pcOf b t).toNat / 64) + j) = 0) :
    fetchWord b (coreKey t.core) (pcOf b t) =
      (coreMod b (coreKey t.core) (fun c => { c with ibuf := ibufTouch c.ibuf ((pcOf b t).toNat / 64) (heldLine b t) }),
        some (heldWord b (coreKey t.core) (pcOf b t))) := by
  unfold fetchWord heldLine heldWord
  dsimp only
  rw [portRead_clean b _ _ h]
  cases hf : (coreGet b (coreKey t.core)).ibuf.find? (fun e => e.1 = (pcOf b t).toNat / 64) with
  | none => simp only
  | some e => simp only

/-! ### The words of the opcode map (R146, R150) -/

/-- The opcode of an instruction word. -/
theorem opcode_encodeWord (op : BitVec 8) (x : Fields) : fld (encodeWord op x) 56 8 = op.toNat := by
  have h : (encodeWord op x).extractLsb' 56 8 = op := by
    unfold encodeWord
    ext i hi
    simp only [BitVec.getElem_extractLsb', BitVec.getLsbD_append]
    rw [if_neg (by omega), if_neg (by omega), if_neg (by omega), if_neg (by omega), if_neg (by omega),
      show 56 + i - 32 - 9 - 5 - 5 - 5 = i by omega, BitVec.getLsbD_eq_getElem]
  have h2 := congrArg BitVec.toNat h
  simpa [fld, BitVec.extractLsb'_toNat, Nat.shiftRight_eq_div_pow] using h2

/-- Every opcode of a core command is in the opcode map. -/
theorem coreOp_defined (i : Instr) (e : BitVec 8 × Fields) (h : coreOp i = some e) : opDefined e.1.toNat = true := by
  cases i <;> simp only [coreOp, Option.some.injEq, reduceCtorEq] at h <;> subst h <;> (dsimp only; decide)

/-- The word of a core command has an opcode of the map. -/
theorem encodeCore_defined (i : Instr) (w : Dword) (h : encodeCore i = some w) : opDefined (fld w 56 8) = true := by
  unfold encodeCore at h
  cases hc : coreOp i with
  | none => simp [hc] at h
  | some e =>
    rw [hc] at h
    have hw : encodeWord e.1 e.2 = w := by simpa using h
    rw [← hw, opcode_encodeWord]
    exact coreOp_defined i e hc

/-! ### Issue -/

/-- An instruction that issues and is legal has its own effect on what the issue leaves. -/
theorem issue_spec (b : Block) (t : Thr) (i : Instr) (uses : List Nat) (legal : Bool) (sem : Block → Block)
    (h : Issues b t i uses) (hl : legal = true) : issue b (thrKey t) uses legal sem = sem (issued b t) := by
  obtain ⟨hc, hp, he, hw⟩ := h
  have hd := encodeCore_defined i _ he
  unfold issue
  rw [if_pos hc, coreKey_thrKey]
  have hp' : pcOk b (coreKey t.core) (thrGet b (thrKey t)).pc = true := hp
  dsimp only
  rw [if_pos hp']
  have hf := fetchWord_clean b t hw
  unfold pcOf at hf
  rw [hf]
  dsimp only
  have hx : (opDefined (fld (heldWord b (coreKey t.core) (pcOf b t)) 56 8) && legal) = true := by rw [hd, hl]; rfl
  unfold pcOf at hx
  rw [if_pos hx]
  rfl

/-- The thread holds the instruction that it issues. -/
theorem holdsOther_of_issues (b : Block) (t : Thr) (i : Instr) (uses : List Nat) (h : Issues b t i uses) :
    holdsOther b t i = false := by
  obtain ⟨_, _, he, _⟩ := h
  unfold holdsOther
  unfold pcOf at he
  simp [he]

/-- A core command that its thread issues. -/
theorem onCore_spec (t : Thr) (i : Instr) (f : Block → Block) (s : State) (uses : List Nat) (h : Issues s.blk t i uses) :
    onCore t i f s = .next { s with blk := f s.blk } := by
  unfold onCore onBlk
  simp [holdsOther_of_issues s.blk t i uses h]

@[simp] theorem coreGet_coreMod (b : Block) (k j : Nat) (f : CoreS → CoreS) :
    coreGet (coreMod b k f) j = if j = k then f (coreGet b k) else coreGet b j := coreGet_corePut _ _ _ _

@[simp] theorem thrGet_thrMod (b : Block) (k j : Nat) (f : Thread → Thread) :
    thrGet (thrMod b k f) j = if j = k then f (thrGet b k) else thrGet b j := thrGet_thrPut _ _ _ _

@[simp] theorem thrGet_coreMod (b : Block) (k j : Nat) (f : CoreS → CoreS) : thrGet (coreMod b k f) j = thrGet b j := rfl

@[simp] theorem coreGet_thrMod (b : Block) (k j : Nat) (f : Thread → Thread) : coreGet (thrMod b k f) j = coreGet b j := rfl

/-- The thread after its issue: only the PC of the instruction that issued last is new. -/
theorem issued_thr (b : Block) (t : Thr) : thrGet (issued b t) (thrKey t) = { thrGet b (thrKey t) with prev := pcOf b t } := by
  unfold issued noteIssue
  simp [pcOf]

/-- Every other thread after an issue. -/
theorem issued_thr_ne (b : Block) (t : Thr) (k : Nat) (h : k ≠ thrKey t) : thrGet (issued b t) k = thrGet b k := by
  unfold issued noteIssue
  simp [h]

/-- The core after an issue. -/
theorem issued_core (b : Block) (t : Thr) : coreGet (issued b t) (coreKey t.core) =
    { coreGet b (coreKey t.core) with
      ibuf := ibufTouch (coreGet b (coreKey t.core)).ibuf ((pcOf b t).toNat / 64) (heldLine b t), last := t.th.val } := by
  unfold issued noteIssue
  simp [coreKey_thrKey, thrKey_mod]

/-- Every other core after an issue. -/
theorem issued_core_ne (b : Block) (t : Thr) (k : Nat) (h : k ≠ coreKey t.core) : coreGet (issued b t) k = coreGet b k := by
  unfold issued noteIssue
  simp [coreKey_thrKey, h]

/-- Everything beside threads and cores after an issue. -/
theorem issued_rest (b : Block) (t : Thr) :
    { issued b t with die := { (issued b t).die with thr := b.die.thr, cores := b.die.cores } } = b := rfl

/-- The vector registers and accumulators after an issue. -/
theorem issued_rv (b : Block) (t : Thr) (r : Nat) :
    (coreGet (issued b t) (coreKey t.core)).rv r = (coreGet b (coreKey t.core)).rv r := by rw [issued_core]; rfl

/-- Writing a thread twice leaves the second. -/
theorem thrPut_thrPut (b : Block) (k : Nat) (x y : Thread) :
    ∀ j, thrGet (thrPut (thrPut b k x) k y) j = thrGet (thrPut b k y) j := by
  intro j
  simp
  split <;> rfl

/-- `pcOk` looks only at the code boundary of the core. -/
theorem pcOk_congr (b c : Block) (ck : Nat) (pc : Word) (h : (coreGet c ck).cB = (coreGet b ck).cB) : pcOk c ck pc = pcOk b ck pc := by
  unfold pcOk
  rw [h]


/-! ### Where control goes on -/

/-- The code boundary of the core stays over an issue. -/
theorem issued_cB (b : Block) (t : Thr) : (coreGet (issued b t) (coreKey t.core)).cB = (coreGet b (coreKey t.core)).cB := by
  rw [issued_core]

/-- Writing threads of an issue leaves every other thread, every other core and the rest. -/
theorem onlyThread_thrPut (b c : Block) (t : Thr) (x : Thread) (h : OnlyThread b c t) : OnlyThread b (thrPut c (thrKey t) x) t := by
  refine ⟨fun k hk => ?_, fun k hk => ?_, h.2.2⟩
  · rw [thrGet_thrPut, if_neg hk]; exact h.1 k hk
  · rw [coreGet_thrPut]; exact h.2.1 k hk

theorem onlyThread_issued (b : Block) (t : Thr) : OnlyThread b (issued b t) t :=
  ⟨fun k hk => issued_thr_ne b t k hk, fun k hk => issued_core_ne b t k hk, issued_rest b t⟩

theorem sameCore_issued (b : Block) (t : Thr) : SameCore b (issued b t) t := by
  unfold SameCore CoreIs
  rw [issued_core]

/-- An instruction that changes its thread by `f` and goes on at the next instruction. -/
theorem finish_issued (b : Block) (t : Thr) (f : Thread → Thread) (hn : NextOk b t) (hf : ∀ h, (f h).pc = h.pc) :
    let c := finish (issued b t) (thrKey t) f
    thrGet c (thrKey t) = { f { thrGet b (thrKey t) with prev := pcOf b t } with st := .ready, pc := pcOf b t + 8 } ∧
    OnlyThread b c t ∧ SameCore b c t := by
  have hpc : (thrGet (thrMod (issued b t) (thrKey t) f) (thrKey t)).pc = pcOf b t := by
    rw [thrGet_thrMod, if_pos rfl, hf, issued_thr]; rfl
  have hok : pcOk (thrMod (issued b t) (thrKey t) f) (thrKey t / 4) (pcOf b t + 8) = true := by
    rw [coreKey_thrKey, pcOk_congr b _ _ _ (by rw [coreGet_thrMod, issued_cB])]; exact hn
  have hc : finish (issued b t) (thrKey t) f = thrMod (thrMod (issued b t) (thrKey t) f) (thrKey t)
      (fun x => { x with st := .ready, pc := pcOf b t + 8 }) := by
    unfold finish advance
    rw [hpc]
    dsimp only
    rw [if_pos hok]
  intro c
  have hc' : c = _ := hc
  rw [hc']
  refine ⟨?_, ?_, ?_⟩
  · rw [thrGet_thrMod, if_pos rfl, thrGet_thrMod, if_pos rfl, issued_thr]
  · exact onlyThread_thrPut _ _ _ _ (onlyThread_thrPut _ _ _ _ (onlyThread_issued b t))
  · unfold SameCore CoreIs
    rw [coreGet_thrMod, coreGet_thrMod]
    exact sameCore_issued b t

/-- An instruction that transfers control to a target that can be fetched. -/
theorem jump_issued (b : Block) (t : Thr) (g : Word) (f : Thread → Thread) (hn : pcOk b (coreKey t.core) g = true) :
    let c := jump (issued b t) (thrKey t) g f
    thrGet c (thrKey t) = { f { thrGet b (thrKey t) with prev := pcOf b t } with st := .ready, pc := g } ∧
    OnlyThread b c t ∧ SameCore b c t := by
  have hok : pcOk (issued b t) (thrKey t / 4) g = true := by
    rw [coreKey_thrKey, pcOk_congr b _ _ _ (issued_cB b t)]; exact hn
  have hc : jump (issued b t) (thrKey t) g f = thrMod (issued b t) (thrKey t) (fun x => { f x with st := .ready, pc := g }) := by
    unfold jump
    dsimp only
    rw [if_pos hok]
  intro c
  have hc' : c = _ := hc
  rw [hc']
  refine ⟨?_, ?_, ?_⟩
  · rw [thrGet_thrMod, if_pos rfl, issued_thr]
  · exact onlyThread_thrPut _ _ _ _ (onlyThread_issued b t)
  · unfold SameCore CoreIs
    rw [coreGet_thrMod]
    exact sameCore_issued b t

/-! ### What an issue leaves readable -/

theorem iss_pc (b : Block) (t : Thr) : (thrGet (issued b t) (thrKey t)).pc = pcOf b t := by rw [issued_thr]; rfl
theorem iss_rs (b : Block) (t : Thr) (r) : (thrGet (issued b t) (thrKey t)).rs r = (thrGet b (thrKey t)).rs r := by rw [issued_thr]; rfl
theorem iss_err (b : Block) (t : Thr) (ck w) : wordErr (issued b t) ck w = wordErr b ck w := rfl
theorem iss_cline (b : Block) (t : Thr) (ck w) : cline (issued b t) ck w = cline b ck w := rfl
theorem iss_cbytes (b : Block) (t : Thr) (ck a n) : cbytes (issued b t) ck a n = cbytes b ck a n := rfl
theorem iss_wB (b : Block) (t : Thr) : (coreGet (issued b t) (coreKey t.core)).wB = (coreGet b (coreKey t.core)).wB := by rw [issued_core]

/-- The range and line checks of a cistern access (R73). -/
theorem inLine_ok (a n : Nat) (h0 : 0 < n) : inLine a n = true ↔ (a + n ≤ 40960 ∧ a % 64 + n ≤ 64) := by
  unfold inLine; simp; omega

/-- A thread that wrote one scalar register and went on. -/
theorem wentTo_ws (b c : Block) (t : Thr) (d : BitVec 5) (v : Word) (p : Word)
    (h : thrGet c (thrKey t) = { ({ thrGet b (thrKey t) with prev := pcOf b t } : Thread).ws d v with st := .ready, pc := p }) :
    WritesS (thrGet b (thrKey t)) (thrGet c (thrKey t)) d v ∧ WentTo b c t p := by
  constructor
  · intro r
    rw [h]
    show (({ thrGet b (thrKey t) with prev := pcOf b t } : Thread).ws d v).rs r = _
    rw [rs_ws]; rfl
  · unfold WentTo; rw [h]; unfold Thread.ws; split <;> rfl

/-- An instruction whose effect left PC and code boundary goes on at the next instruction. -/
theorem advance_of (b c : Block) (t : Thr) (hn : NextOk b t) (hpc : (thrGet c (thrKey t)).pc = pcOf b t)
   (hcb : (coreGet c (coreKey t.core)).cB = (coreGet b (coreKey t.core)).cB) :
   advance c (thrKey t) = thrMod c (thrKey t) (fun h => { h with st := .ready, pc := pcOf b t + 8 }) := by
  unfold advance
  have hok : pcOk c (thrKey t / 4) (pcOf b t + 8) = true := by
    rw [coreKey_thrKey, pcOk_congr b _ _ _ hcb]; exact hn
  dsimp only
  rw [hpc, if_pos hok]

/-- A place is read from the paddocks and the retired rows alone. -/
theorem placeD0_congr (b c : Block) (ck : Nat) (hp : c.pads = b.pads) (hr : c.retired = b.retired) : placeD0 c ck = placeD0 b ck := by
  unfold placeD0 physRow padOf padGet
  rw [hp, hr]

/-- An unhandled trap adds one report and changes nothing else. -/
theorem coreTrap_eq (b : Block) (k cause : Nat) (pc : Word) : coreTrap b k cause pc =
    { b with reports := b.reports ++ [⟨0x108, contained, placeD0 b (k / 4), at_ 19 (k % 4) ||| at_ 21 cause, at_ 0 (fld pc 0 16), 0,
      unitOf b (k / 256), b.time, false, false, false, false⟩] } := rfl

/-- What a trap of the instruction that issued does where its handler takes it, and where none does (R177). -/
theorem takeTrap_issued (b : Block) (t : Thr) (tr : Trap) (v : Word) : takeTrap (issued b t) (thrKey t) tr (pcOf b t) v =
    if tr.handled = true ∧ (thrGet b (thrKey t)).tvec ≠ 0 ∧ (thrGet b (thrKey t)).tcause = 0 then
      thrPut (issued b t) (thrKey t) { thrGet b (thrKey t) with st := .ready, pc := (thrGet b (thrKey t)).tvec, prev := pcOf b t,
                                                                 tcause := BitVec.ofNat 32 tr.code, tpc := pcOf b t, tval := v }
    else coreTrap (thrPut (issued b t) (thrKey t) { thrGet b (thrKey t) with st := .faulted, prev := pcOf b t }) (thrKey t) tr.code (pcOf b t) := by
  unfold takeTrap
  rw [issued_thr]
  dsimp only
  by_cases h : tr.handled = true ∧ (thrGet b (thrKey t)).tvec ≠ 0 ∧ (thrGet b (thrKey t)).tcause = 0
  · rw [if_pos (by simpa [and_assoc] using h), if_pos h]
  · rw [if_neg (by simpa [and_assoc] using h), if_neg h]

/-- The low 16 bits of a word, as a report shows a PC. -/
theorem at_fld16 (w : Word) : (at_ 0 (fld w 0 16)).toNat = w.toNat % 65536 := by
  simp [at_, fld]
  try omega

/-- A trap of the instruction that issued (R177). -/
theorem trap_issued (b : Block) (t : Thr) (tr : Trap) (v : Word) : TrapTaken b (trapNow (issued b t) (thrKey t) tr v) t tr v := by
  unfold trapNow TrapTaken
  rw [iss_pc, takeTrap_issued]
  dsimp only
  split
  · refine ⟨⟨by simp [pcOf], rfl⟩, fun k hk => ?_, fun k hk => ?_, sameCore_issued b t, rfl⟩
    · simp [hk, issued_thr_ne _ _ _ hk]
    · simp [issued_core_ne _ _ _ hk]
  · rw [coreTrap_eq]
    refine ⟨⟨?_, _, rfl, rfl, rfl, ?_, ?_, at_fld16 _, rfl⟩, fun k hk => ?_, fun k hk => ?_, sameCore_issued b t, rfl⟩
    · rw [show ∀ (c : Block) (l : List Report) (k : Nat), thrGet { c with reports := l } k = thrGet c k from fun _ _ _ => rfl]
      simp [pcOf]
    · rw [coreKey_thrKey]
      exact placeD0_congr b _ _ rfl rfl
    · rw [thrKey_mod]
    · rw [show ∀ (c : Block) (l : List Report) (k : Nat), thrGet { c with reports := l } k = thrGet c k from fun _ _ _ => rfl]
      simp [hk, issued_thr_ne _ _ _ hk]
    · rw [show ∀ (c : Block) (l : List Report) (k : Nat), coreGet { c with reports := l } k = coreGet c k from fun _ _ _ => rfl]
      simp [issued_core_ne _ _ _ hk]

end Sys2Proof.Machine
end

