-- ==== Sys2Proof/Laws/Memory.lean ====
section
/-! SUPPORT. Laws of the addressed memories: the canonical form holds at reset and every memory operation keeps it; what a write of
bytes and a store leave. -/

set_option Elab.async false

namespace Sys2Proof.Machine

/-! ### The canonical form of one memory -/

/-- The canonical form, part by part. -/
theorem Memory.wf_iff (b : Block) : Memory.wf b = true ↔
    twf 0 b.die.cist = true ∧ twf 0 b.hbm.mem = true ∧ twf 0 b.sec.flash = true ∧ twf 0 b.sec.store = true ∧ twf 0 b.regs = true := by
  simp [Memory.wf, and_assoc]

/-- Reset lists nothing but BAR0's reset values, in canonical form. -/
theorem reset_memory_wf : Memory.wf State.reset.blk = true := by decide

/-- The removal of a range keeps the canonical form. -/
theorem twf_dropRange {α : Type} [DecidableEq α] (d : α) (m : Tbl α) (lo hi : Nat) (h : twf d m = true) : twf d (dropRange m lo hi) = true :=
  twf_filter d m _ h

/-- Entries set to the default, one after the other. -/
theorem tget_foldl_tput (f : Nat → Nat) (ws : List Nat) (m : Tbl Nat) (k : Nat) (h : tget 0 m k = 0 ∨ ∀ w ∈ ws, f w ≠ k) :
    tget 0 (ws.foldl (fun m w => tput 0 m (f w) 0) m) k = tget 0 m k := by
  induction ws generalizing m with
  | nil => rfl
  | cons w r ih =>
    have hm : tget 0 (tput 0 m (f w) 0) k = tget 0 m k := by
      rw [tget_tput]
      split
      · rename_i he
        rcases h with h | h
        · exact h.symm
        · exact absurd he.symm (h w (List.mem_cons_self ..))
      · rfl
    rw [List.foldl_cons, ih, hm]
    rcases h with h | h
    · exact .inl (hm.trans h)
    · exact .inr (fun v hv => h v (List.mem_cons_of_mem _ hv))

/-! ### The operations over a block's memories -/

/-- A change that keeps the five memories keeps their form. -/
theorem Memory.wf_congr (b c : Block) (h1 : c.die.cist = b.die.cist) (h2 : c.hbm.mem = b.hbm.mem) (h3 : c.sec.flash = b.sec.flash)
    (h4 : c.sec.store = b.sec.store) (h5 : c.regs = b.regs) : Memory.wf c = Memory.wf b := by
  simp [Memory.wf, h1, h2, h3, h4, h5]

/-- A write of a register keeps the canonical form. -/
theorem wf_regPut (b : Block) (off : Nat) (v : Word) (h : Memory.wf b = true) : Memory.wf (regPut b off v) = true := by
  rw [Memory.wf_iff] at h ⊢
  exact ⟨h.1, h.2.1, h.2.2.1, h.2.2.2.1, twf_tput _ _ _ _ h.2.2.2.2⟩

/-- So does a write of one field. -/
theorem wf_regSet (b : Block) (off lo len v : Nat) (h : Memory.wf b = true) : Memory.wf (regSet b off lo len v) = true :=
  wf_regPut _ _ _ h

/-- So does a count. -/
theorem wf_regCount (b : Block) (off lo len n : Nat) (h : Memory.wf b = true) : Memory.wf (regCount b off lo len n) = true :=
  wf_regSet _ _ _ _ _ h

/-- So does a register write through its field classes. -/
theorem wf_regStore (b : Block) (off key : Nat) (w : Word) (h : Memory.wf b = true) : Memory.wf (regStore b off key w) = true := by
  unfold regStore
  split
  · exact wf_regPut _ _ _ h
  · exact h

/-- A report and an output leave the memories alone. -/
@[simp] theorem wf_raise (b : Block) (src cls : Nat) (d0 d1 d2 d3 : Word) (u : FUnit) :
    Memory.wf (raise b src cls d0 d1 d2 d3 u) = Memory.wf b := rfl

@[simp] theorem wf_emit (b : Block) (o : Out) : Memory.wf (emit b o) = Memory.wf b := rfl

@[simp] theorem wf_thrPut (b : Block) (k : Nat) (x : Thread) : Memory.wf (thrPut b k x) = Memory.wf b := rfl

@[simp] theorem wf_thrMod (b : Block) (k : Nat) (f : Thread → Thread) : Memory.wf (thrMod b k f) = Memory.wf b := rfl

@[simp] theorem wf_corePut (b : Block) (k : Nat) (x : CoreS) : Memory.wf (corePut b k x) = Memory.wf b := rfl

@[simp] theorem wf_coreMod (b : Block) (k : Nat) (f : CoreS → CoreS) : Memory.wf (coreMod b k f) = Memory.wf b := rfl

@[simp] theorem wf_padPut (b : Block) (p : Nat) (x : Pad) : Memory.wf (padPut b p x) = Memory.wf b := rfl

@[simp] theorem wf_pairMod (b : Block) (f : PairS → PairS) : Memory.wf (pairMod b f) = Memory.wf b := rfl

@[simp] theorem wf_hostMod (b : Block) (f : HostS → HostS) : Memory.wf (hostMod b f) = Memory.wf b := rfl

@[simp] theorem wf_pwrMod (b : Block) (f : PwrS → PwrS) : Memory.wf (pwrMod b f) = Memory.wf b := rfl

@[simp] theorem wf_fltMod (b : Block) (f : FltS → FltS) : Memory.wf (fltMod b f) = Memory.wf b := rfl

@[simp] theorem wf_lpPut (b : Block) (p : Nat) (x : LPort) : Memory.wf (lpPut b p x) = Memory.wf b := rfl

/-- A change of what cistern words hold of errors leaves the bytes alone. -/
@[simp] theorem wf_clearErr (b : Block) (ck : Nat) (ws : List Nat) : Memory.wf (clearErr b ck ws) = Memory.wf b := rfl

/-- A write of cistern bytes keeps the canonical form. -/
theorem wf_cwrite (b : Block) (ck a : Nat) (l : List Byte) (h : Memory.wf b = true) : Memory.wf (cwrite b ck a l) = true := by
  rw [Memory.wf_iff] at h ⊢
  exact ⟨twf_putBytes _ _ _ h.1, h.2⟩

/-- So does a whole-line write. -/
theorem wf_portWrite (b : Block) (ck l : Nat) (v : Line) (h : Memory.wf b = true) : Memory.wf (portWrite b ck l v) = true :=
  wf_cwrite _ _ _ _ h

/-- The log of corrected errors leaves the bytes alone. -/
@[simp] theorem wf_logSingles (b : Block) (ck : Nat) (ws : List Nat) : Memory.wf (logSingles b ck ws) = Memory.wf b := by
  unfold logSingles
  induction ws generalizing b with
  | nil => rfl
  | cons w r ih =>
    rw [List.foldl_cons, ih]
    split
    · rfl
    · simp

@[simp] theorem wf_cisternUe (b : Block) (ck w : Nat) : Memory.wf (cisternUe b ck w) = Memory.wf b := rfl

/-- A read through the port leaves the bytes alone. -/
@[simp] theorem wf_portRead (b : Block) (ck l : Nat) : Memory.wf (portRead b ck l).1 = Memory.wf b := by
  unfold portRead
  dsimp only
  split <;> simp

/-- A store keeps the canonical form, where it stores and where an error stops it. -/
theorem wf_portStore (b : Block) (ck a : Nat) (l : List Byte) (h : Memory.wf b = true) : Memory.wf (portStore b ck a l).1 = true := by
  unfold portStore
  dsimp only
  split
  · simpa using wf_cwrite _ _ _ _ h
  · split
    · simpa using h
    · exact wf_cwrite _ _ _ _ (by simpa using h)

/-- A write of HBM keeps the canonical form. -/
theorem wf_hwrite (b : Block) (a : Nat) (l : List Byte) (h : Memory.wf b = true) : Memory.wf (hwrite b a l) = true := by
  rw [Memory.wf_iff] at h ⊢
  exact ⟨h.1, twf_putBytes _ _ _ h.2.1, h.2.2⟩

/-- Zeroed addresses keep it. -/
theorem wf_hzero (b : Block) (lo hi : Nat) (h : Memory.wf b = true) : Memory.wf (hzero b lo hi) = true := by
  rw [Memory.wf_iff] at h ⊢
  exact ⟨h.1, twf_dropRange _ _ _ _ h.2.1, h.2.2⟩

/-- A zeroed segment keeps it. -/
theorem wf_segZero (b : Block) (k : Nat) (h : Memory.wf b = true) : Memory.wf (segZero b k) = true := wf_hzero _ _ _ h

/-- Bytes written to the flash or the settings store keep it. -/
theorem wf_secMod (b : Block) (f : SecS → SecS) (h : Memory.wf b = true) (hf : twf 0 (f b.sec).flash = true)
    (hs : twf 0 (f b.sec).store = true) : Memory.wf (secMod b f) = true := by
  rw [Memory.wf_iff] at h ⊢
  exact ⟨h.1, h.2.1, hf, hs, h.2.2.2.2⟩

/-- A warm reset of BAR0 keeps it. -/
theorem twf_warmRegs (sel : Nat → Bool) (m : Tbl Word) (h : twf 0 m = true) : twf 0 (warmRegs sel m) = true := by
  unfold warmRegs
  have : ∀ (l : Tbl Word) (n : Tbl Word), twf 0 n = true → twf 0 (l.foldl (fun n e =>
      let off := e.1 % 2 ^ 22
      match specAt off with
      | some r => if sel off then tput 0 n e.1 ((e.2 &&& ~~~r.warm) ||| (r.reset &&& r.warm)) else n
      | none => n) n) = true := by
    intro l
    induction l with
    | nil => intro n hn; exact hn
    | cons e r ih =>
      intro n hn
      rw [List.foldl_cons]
      apply ih
      dsimp only
      split
      · split
        · exact twf_tput _ _ _ _ hn
        · exact hn
      · exact hn
  exact this m m h

/-! ### What a write leaves -/

/-- A write of cistern bytes changes exactly those bytes. -/
theorem cbyte_cwrite (b : Block) (ck a : Nat) (l : List Byte) (ck' i : Nat) (hi : i < 40960) (ha : a + l.length ≤ 40960) :
    cbyte (cwrite b ck a l) ck' i = if ck' = ck ∧ a ≤ i ∧ i < a + l.length then l.getD (i - a) 0 else cbyte b ck' i := by
  unfold cbyte cwrite
  dsimp only
  split
  · rename_i h
    obtain ⟨rfl, h1, h2⟩ := h
    have hl : i - a < l.length := by omega
    rw [show 40960 * ck' + i = 40960 * ck' + a + (i - a) by omega, tget_putBytes_in _ _ _ _ hl]
    simp [hl]
  · rename_i h
    rw [tget_putBytes_out]
    by_cases hk : ck' = ck
    · subst hk; omega
    · omega

/-- A store into a line without errors writes its bytes, raises nothing, and leaves the line without errors (R79). -/
theorem portStore_clean (b : Block) (ck a : Nat) (l : List Byte) (hc : CleanLine b ck (a / 64)) (ha : a + l.length ≤ 40960) :
    ∃ e, portStore b ck a l = ({ cwrite b ck a l with die := { (cwrite b ck a l).die with cistErr := e } }, true) ∧
      ∀ ck' w, w < 5120 → tget 0 e (5120 * ck' + w) = wordErr b ck' w := by
  have hws : ∀ w ∈ (List.range 8).map (fun i => 8 * (a / 64) + i), wordErr b ck w = 0 := by
    intro w hw
    obtain ⟨i, hi, rfl⟩ := List.mem_map.1 hw
    exact hc i (List.mem_range.1 hi)
  have hlog : ∀ ws : List Nat, (∀ w ∈ ws, wordErr b ck w = 0) → logSingles b ck ws = b := by
    intro ws
    induction ws with
    | nil => intro _; rfl
    | cons w r ih =>
      intro hw
      unfold logSingles
      rw [List.foldl_cons, if_pos (hw w (List.mem_cons_self ..))]
      exact ih (fun v hv => hw v (List.mem_cons_of_mem _ hv))
  unfold portStore
  dsimp only
  split
  · refine ⟨_, rfl, fun ck' w hw => ?_⟩
    apply tget_foldl_tput
    by_cases hz : wordErr b ck' w = 0
    · exact .inl hz
    · refine .inr (fun v hv he => hz ?_)
      have hv' := (List.mem_filter.1 hv).1
      have hv2 : v < 5120 := by
        have := (List.mem_filter.1 hv).2
        simp at this; omega
      obtain ⟨rfl, rfl⟩ : ck = ck' ∧ v = w := by omega
      exact hws v hv'
  · rw [List.find?_eq_none.2 (by intro w hw; simp [hws w hw])]
    dsimp only
    exact ⟨b.die.cistErr, by rw [hlog _ hws]; rfl, fun ck' w hw => rfl⟩

end Sys2Proof.Machine
end

