-- ==== Sys2Proof/Tests/Setup.lean ====
section
/-! SUPPORT. Small states for the tests and the witnesses. -/

set_option Elab.async false

namespace Sys2Proof.Tests

open Sys2Proof Sys2Proof.Machine

/-- Thread 0 of core c0 of team (0, 0). -/
def th0 : Thr := ⟨⟨⟨0, 0⟩, 0⟩, 0⟩

/-- Fields that are all 0. -/
def f0 : Fields := ⟨0, 0, 0, 0, 0⟩

/-- A ready paddock of a given width and height at team (0, 0). -/
def padOn (w h : Nat) : Pad := { Pad.init with st := .ready, env := { Env.zero with width := w, height := h } }

/-- A block with paddock 0, whose core c0 of team (0, 0) holds some words from line 0 on, and whose thread 0 is ready. -/
def running (y : Pad) (h : Thread) (x : CoreS) (l : List Instr) : Block :=
  let b := cwrite { Block.reset with pads := [(0, y)] } 0 0 (l.flatMap (fun i => bytesOf 8 ((encodeCore i).getD 0).toNat))
  corePut (thrPut b 0 { h with st := .ready }) 0 { x with cB := 1, wB := 1 }

/-- A state whose thread 0 holds an instruction twice, in a paddock of one team. -/
def at0 (i : Instr) : State := ⟨running (padOn 1 1) Thread.parked CoreS.init [i, i], []⟩

/-- The same with other scalar registers. -/
def atS (i : Instr) (s : Tbl Word) : State := ⟨running (padOn 1 1) { Thread.parked with s := s } CoreS.init [i, i], []⟩

/-- A state of a block. -/
def st (b : Block) : State := ⟨b, []⟩

/-- The block that a command leaves, where it answers a next state. -/
def after (i : Instr) (s : State) : Option Block :=
  match exec i s with
  | .next t => some t.blk
  | _ => none

/-- A number made of fields: (first bit, value). -/
def bitsOf (l : List (Nat × Nat)) : Nat := (l.map (fun e => e.2 * 2 ^ e.1)).sum

/-- A descriptor made of fields: (first bit, value). -/
def desc (l : List (Nat × Nat)) : Line := BitVec.ofNat 512 (bitsOf l)

/-- A block out of reset with ROOT locked and Swizen, the CXL link, the stacks of HBM, the tiers, the first two columns, all ports,
the fabric, the pair and the scheduler ready; some registers stand before the reset values. -/
def up (rs : Tbl Word) : Block :=
  { Block.reset with
    pwr := { PwrS.init with perst := false, refOk := true, locked := true, held := false, cold := false, ready :=
      [0, 128, 256, 257, 258, 259, 260, 261, 262, 263, 384, 385, 386, 387, 512, 513, 640, 641, 642, 643, 768, 896, 1024].map (fun k => (k, true)) }
    regs := rs ++ Block.reset.regs }

/-- The registers of ring pair `q` with rings of 64 entries, a result ring, and no interrupts. -/
def ringRegs (q : Nat) : Tbl Word :=
  [(0x20004 + 2 ^ 22 * (q + 1), 2), (0x20008 + 2 ^ 22 * (q + 1), 6 + 6 * 256 + 6 * 65536)]

/-- The module with ring pair 0 in a given state. -/
def onRing (x : RPair) : Block :=
  let b := up (ringRegs 0)
  { b with host := { b.host with pairs := [(0, x)] } }

/-- An enabled pair with nothing in it. -/
def open0 : RPair := { RPair.init with st := 1 }

/-- The module with pair 0 enabled and one descriptor fetched. -/
def holding (d : Line) : Block := onRing { open0 with sqHead := 1, sqTail := 1, reserved := 1, fetched := [d] }

end Sys2Proof.Tests
end

