-- ==== Sys2Proof/WellFormed.lean ====
section
/-! DEFINITION. Which commands are well formed: the bounds of operands that their types leave open.  A meaning is total: an
ill-formed command has a meaning too, but nothing outside the module can send it. -/

namespace Sys2Proof

/-- Units of a function of R425. -/
def functionUnits (f : Fin 9) : Nat :=
  match f.val with
  | 2 => 8 | 3 => 4 | 4 => 80 | 5 => 32 | _ => 1

/-- A KV page is 32 KiB (R105). -/
def pagesOk (l : List (Option (List Byte))) : Bool := l.all (fun p => p.all (fun d => decide (d.length = 32768)))

/-- A detector's report: a source of 13 bits and a class code of 1 to 3 (R457). -/
def Detect.ok (d : Detect) : Bool := decide (d.source < 8192) && decide (1 ≤ d.cls) && decide (d.cls ≤ 3)

/-- The well-formed commands. -/
def Instr.wf (i : Instr) : Bool :=
  match i with
  | .turnAdmission _ l => pagesOk l
  | .recall _ l => pagesOk l
  | .modelStageStage _ _ (some h) => decide (h.length ≤ 4096)
  | .stageCopyDone _ l => l.all (fun c => c.all (fun d => decide (d.length ≤ 2097152)))
  | .cxlMemWrite _ d _ => decide (d ≠ [])
  | .hbmPoolZeroing s => decide (s < 196608)
  | .hbmPatrolScrub s => decide (s < 196608)
  | .faultReport l => l.all Detect.ok
  | .registerWrite o d => decide (d ≠ []) && decide (o.off + d.length ≤ 2 ^ 22)
  | .wideRegisterLowRead o => decide (1 ≤ o.bytes) && decide (o.off + o.bytes ≤ 2 ^ 22)
  | .mi3cRegisterRead o => decide (o + 4 ≤ 2 ^ 22)
  | .temperatureSample _ c _ _ => decide (-2048 ≤ c) && decide (c ≤ 2047)
  | .unitReady f u => decide (u < functionUnits f)
  | .unitNotReady f u => decide (u < functionUnits f)
  | .pilotToneWindow _ _ t w => decide (t.length = 18) && w.all (fun k => decide (k < 144))
  | .laserPowerMeasure _ _ p => decide (p.length = 18)
  | .loopUpdate _ l => l.all (fun e => decide (e.index < 576))
  | .marginTestDone _ _ _ e _ => decide (e.length = 21)
  | .calDone _ _ t r => decide (t.errs.length = 21) && decide (r.errs.length = 21)
  | .linkTraining _ r _ => decide (r.length = 16)
  | .errorRateWindow _ n u _ _ => decide (u ≤ n)
  | .flitReceive _ f => decide (f.payload.length = 240)
  | .hello _ h => decide (h.port < 32)
  | _ => true

end Sys2Proof
end

