-- ==== Sys2Proof/Tests/Slice0.lean ====
section
/-! SUPPORT. The model's own tests: one ill-formed term for each check of well-formedness, words written out from the encoding of R146
and the opcode map of R150, the witnesses of the two statements that concern the queue and the words, and single steps whose expected
values are the manual's worked examples. -/

set_option Elab.async false

namespace Sys2Proof.Tests

open Sys2Proof Sys2Proof.Machine

/-! ### The queue and the words -/

/-- The idle step is met with ROOT running and with ROOT off. -/
theorem witness_IdleStepTicks : (st (up [])).pending = [] ∧ rootRuns (st (up [])).blk = true ∧ State.reset.pending = [] ∧
    rootRuns State.reset.blk = false := by decide +kernel

theorem witness_CoreWordsAgree :
    encodeCore (.trap th0 ⟨31, 31, 31, 0x1FF, 0xFFFFFFFF⟩) = some 0xB5FFFFFFFFFFFFFF ∧
    decodeCore th0 0xB5FFFFFFFFFFFFFF = some (.trap th0 ⟨31, 31, 31, 0x1FF, 0xFFFFFFFF⟩) ∧
    decodeCore th0 0x0000000000000000 = some (.add th0 f0) := by decide +kernel

/-- The queue's front runs, and the rest stays (R6 to R9 name no queue: it is the model's). -/
theorem test_step_takes_the_front : (match step ⟨Block.reset, [.powerOn, .doorbellPoll]⟩ with
    | .next t => decide (t.pending = [Instr.doorbellPoll]) && t.blk.pwr.powered
    | _ => false) = true := by decide +kernel

/-- The table gives its rows no bits. -/
theorem test_no_table_words : decodeTableWord 64 0 = none ∧ State.reset.withFetchWord 64 0 = State.reset := by
  exact ⟨rfl, rfl⟩

/-! ### Words of the core instructions: OP, D, A, B, MOD and IMM, bit by bit (R146, R150) -/

theorem test_word_scalar : decodeCore th0 0b00000001_00011_00001_00010_000000000_00000000000000000000000000000000 =
      some (.sub th0 ⟨3, 1, 2, 0, 0⟩) ∧
    decodeCore th0 0b00010000_00110_00000_00000_000000000_00000000000000000000000000001111 = some (.addi th0 ⟨6, 0, 0, 0, 15⟩) := by
  decide +kernel

theorem test_word_branch : decodeCore th0 0b00100001_00000_00110_00000_000000000_11111111111111111111111111110111 =
      some (.bne th0 ⟨0, 6, 0, 0, 0xFFFFFFF7⟩) ∧
    decodeCore th0 0b00100111_00001_00101_00000_000000000_00000000000000000000000000001000 = some (.jalr th0 ⟨1, 5, 0, 0, 8⟩) := by
  decide +kernel

theorem test_word_cistern : decodeCore th0 0b00110000_00101_00100_00000_000000101_00000000000000000000000000000010 =
      some (.ld th0 ⟨5, 4, 0, 5, 2⟩) ∧
    decodeCore th0 0b00110011_00000_01000_00011_000111111_00000000000000000000000000000000 = some (.stv th0 ⟨0, 8, 3, 63, 0⟩) ∧
    decodeCore th0 0b00110100_00000_00001_00010_000000000_00000000000000000000000000000000 = some (.strm th0 ⟨0, 1, 2, 0, 0⟩) := by
  decide +kernel

theorem test_word_vector : decodeCore th0 0b01000011_01111_00001_00010_000001000_00000000000000000000000000000000 =
      some (.vfma th0 ⟨15, 1, 2, 8, 0⟩) ∧
    decodeCore th0 0b01110010_00001_00010_00000_000000000_00000000000000000000000000000000 = some (.vrsq th0 ⟨1, 2, 0, 0, 0⟩) := by
  decide +kernel

theorem test_word_dot : decodeCore th0 0b01010000_00000_00000_00001_000110001_00000000000000000000000000001111 =
      some (.dot th0 ⟨0, 0, 1, 0x31, 15⟩) ∧
    decodeCore th0 0b01010011_00011_01111_00100_000000000_00000000000000000000000000001111 = some (.ardv th0 ⟨3, 15, 4, 0, 15⟩) ∧
    decodeCore th0 0b01100001_00001_00010_00000_000000011_00000000000000000000000000000000 = some (.cvtmx th0 ⟨1, 2, 0, 3, 0⟩) := by
  decide +kernel

theorem test_word_mesh : decodeCore th0 0b10000001_00000_01010_00101_000000000_00000000000000000000000000000000 =
      some (.rwrv th0 ⟨0, 10, 5, 0, 0⟩) ∧
    decodeCore th0 0b10010000_00001_00010_00011_000000010_00000000000000000000000000000100 = some (.pump th0 ⟨1, 2, 3, 2, 4⟩) := by
  decide +kernel

theorem test_word_sync : decodeCore th0 0b10100011_00000_00000_00000_000000001_00000000000000000000000000100010 =
      some (.take th0 ⟨0, 0, 0, 1, 0x22⟩) ∧
    decodeCore th0 0b10100101_00000_00000_00000_000000001_00000000000000000000000000000111 = some (.arrive th0 ⟨0, 0, 0, 1, 7⟩) ∧
    decodeCore th0 0b10100100_00000_00000_00000_000000001_00000000000000000000000000000000 = some (.fence th0 ⟨0, 0, 0, 1, 0⟩) := by
  decide +kernel

theorem test_word_thread : decodeCore th0 0b10110011_00111_00000_00000_000000000_00000000000000000000000000000000 =
      some (.mfsr th0 ⟨7, 0, 0, 0, 0⟩) ∧
    decodeCore th0 0b00001111_00000_00000_00000_000000000_00000000000000000000000000000000 = none ∧
    decodeCore th0 0b10110110_00000_00000_00000_000000000_00000000000000000000000000000000 = none := by
  decide +kernel

/-! ### Well-formedness: one ill-formed term for each check, and the bound it lies past -/

/-- A word of fields. -/
def zero12 : List Byte := [0, 0, 0, 0, 0, 0, 0, 0, 0, 0, 0, 0]

theorem test_wf_pages : (Instr.turnAdmission 0 [some []]).wf = false ∧ (Instr.turnAdmission 0 [none]).wf = true ∧
    (Instr.recall 0 [none, some [0]]).wf = false ∧ (Instr.recall 0 []).wf = true ∧
    (Instr.modelStageStage 0 [] (some (List.replicate 4097 0))).wf = false ∧
    (Instr.modelStageStage 0 [none] (some (List.replicate 4096 0))).wf = true := by decide +kernel

theorem test_wf_window : (Instr.cxlMemWrite 0 [] false).wf = false ∧ (Instr.cxlMemWrite 0 [0] false).wf = true ∧
    (Instr.hbmPoolZeroing 196608).wf = false ∧ (Instr.hbmPoolZeroing 196607).wf = true ∧
    (Instr.hbmPatrolScrub 196608).wf = false ∧ (Instr.hbmPatrolScrub 196607).wf = true := by decide +kernel

theorem test_wf_reports : (Instr.faultReport [⟨8192, 1, 0, 0, 0, 0, false, false, []⟩]).wf = false ∧
    (Instr.faultReport [⟨0, 0, 0, 0, 0, 0, false, false, []⟩]).wf = false ∧ (Instr.faultReport [⟨0, 4, 0, 0, 0, 0, false, false, []⟩]).wf = false ∧
    (Instr.faultReport [⟨8191, 3, 0, 0, 0, 0, false, false, []⟩]).wf = true := by decide +kernel

theorem test_wf_registers : (Instr.registerWrite ⟨false, 0⟩ []).wf = false ∧
    (Instr.registerWrite ⟨false, 4194303⟩ [0, 0]).wf = false ∧ (Instr.registerWrite ⟨true, 4194303⟩ [0]).wf = true ∧
    (Instr.wideRegisterLowRead ⟨false, 4194301, 4⟩).wf = false ∧ (Instr.wideRegisterLowRead ⟨false, 0, 0⟩).wf = false ∧
    (Instr.wideRegisterLowRead ⟨true, 4194296, 8⟩).wf = true ∧ (Instr.mi3cRegisterRead 4194301).wf = false ∧
    (Instr.mi3cRegisterRead 4194300).wf = true := by decide +kernel

theorem test_wf_units : (Instr.temperatureSample 0 (-2049) true true).wf = false ∧ (Instr.temperatureSample 0 2048 true true).wf = false ∧
    (Instr.temperatureSample 559 2047 true true).wf = true ∧ (Instr.unitReady 4 80).wf = false ∧ (Instr.unitReady 4 79).wf = true ∧
    (Instr.unitNotReady 0 1).wf = false ∧ (Instr.unitNotReady 0 0).wf = true := by decide +kernel

theorem test_wf_optics : (Instr.pilotToneWindow 0 0 [] []).wf = false ∧
    (Instr.pilotToneWindow 0 0 (List.replicate 18 none) [144]).wf = false ∧
    (Instr.pilotToneWindow 0 0 (List.replicate 18 none) [143]).wf = true ∧ (Instr.laserPowerMeasure 0 0 []).wf = false ∧
    (Instr.laserPowerMeasure 0 0 (List.replicate 18 none)).wf = true ∧ (Instr.loopUpdate 0 [⟨576, 0, true⟩]).wf = false ∧
    (Instr.loopUpdate 0 [⟨575, 0, true⟩]).wf = true ∧ (Instr.marginTestDone 0 true 0 [] 0).wf = false ∧
    (Instr.marginTestDone 0 true 0 (List.replicate 21 0) 0).wf = true ∧ (Instr.calDone 0 ⟨false, false⟩ ⟨[], 0⟩ ⟨List.replicate 21 0, 0⟩).wf = false ∧
    (Instr.calDone 0 ⟨false, false⟩ ⟨List.replicate 21 0, 0⟩ ⟨[], 0⟩).wf = false ∧
    (Instr.calDone 0 ⟨false, false⟩ ⟨List.replicate 21 0, 0⟩ ⟨List.replicate 21 0, 0⟩).wf = true := by decide +kernel

theorem test_wf_links : (Instr.linkTraining 0 [] ⟨true, 0⟩).wf = false ∧ (Instr.linkTraining 0 (List.replicate 16 10) ⟨true, 0⟩).wf = true ∧
    (Instr.errorRateWindow 0 1 2 0 0).wf = false ∧ (Instr.errorRateWindow 0 2 2 0 0).wf = true ∧
    (Instr.flitReceive 0 ⟨0, zero12, 0, [], []⟩).wf = false ∧
    (Instr.flitReceive 0 ⟨0, List.replicate 240 0, 0, [], []⟩).wf = true ∧
    (Instr.hello 0 ⟨0, false, 32, none, false, none, 0⟩).wf = false ∧ (Instr.hello 0 ⟨0, false, 31, none, false, none, 0⟩).wf = true := by
  decide +kernel

/-! ### Numbers (R128, R132, R135, R139): the worked examples of the chapter on number formats -/

/-- A register of E4M3 elements. -/
def e4m3s (l : List Nat) : Line := packVec 8 l

/-- The accumulator of the example after its first dot. -/
def acc1 : Acc := { Acc.clear false (BitVec.ofInt 9 (-18)) with n := 117440513 }

/-- The core of the example's first dot: acc3 clear with F = −18, v1 = (1.5, −0.75, 448, 2^−9), v2 = (2, 4, 1, 2^−9). -/
def dotCore : CoreS :=
  { CoreS.init with
    acc := [(3, Acc.clear false (BitVec.ofInt 9 (-18)))]
    v := [(1, e4m3s [0x3C, 0xB4, 0x7E, 0x01]), (2, e4m3s [0x40, 0x48, 0x38, 0x01])] }

/-- The two dots of the example, one after the other. -/
theorem test_dot_e4m3 :
    dotFixed (Acc.clear false (BitVec.ofInt 9 (-18))) ([0x3C, 0xB4, 0x7E, 0x01].map (elemVal .e4m3 true))
      ([0x40, 0x48, 0x38, 0x01].map (elemVal .e4m3 true)) (fun _ => 0x7D) (fun _ => 0x81) = acc1 ∧
    dotFixed acc1 ([0x3A, 0x01].map (elemVal .e4m3 true)) ([0x38, 0x01].map (elemVal .e4m3 true)) (fun _ => 0x7C) (fun _ => 0x7F) =
      { acc1 with n := 117481473, inx := true } := by decide +kernel

/-- `DOT` of v1 and v2 into acc3, with the scale codes in s1 and s2 (R161). -/
def dotE4m3 : Instr := .dot th0 ⟨3, 1, 2, 3, 0x41000⟩

/-- The first dot, as one step. -/
theorem test_dot_step : ((after dotE4m3 ⟨running (padOn 1 1) { Thread.parked with s := [(1, 0x7D), (2, 0x81)] } dotCore [dotE4m3, dotE4m3], []⟩).map
    (fun b => ((coreGet b 0).ra 3, (thrGet b 0).pc))) = some (acc1, 8) := by decide +kernel

/-- `ARD` with r = 0.5 gives 0x4360_1400 and sets `AINX` of `ASTAT` (R132, R133, R143). -/
theorem test_ard_rounds : ((after (.ard th0 ⟨1, 3, 2, 0, 0⟩)
    ⟨running (padOn 1 1) { Thread.parked with s := [(2, 0x3F000000)] } { CoreS.init with acc := [(3, { acc1 with n := 117481473, inx := true })] }
      [.ard th0 ⟨1, 3, 2, 0, 0⟩, .nop th0 f0], []⟩).map (fun b => ((thrGet b 0).rs 1, bit (thrGet b 0).astat 6))) =
    some (0x43601400, true) := by decide +kernel

/-- The scale of a block whose largest input is 1000.0, and its elements 500.0 and 150.0 (R138, R139). -/
theorem test_cvtmx_block : mxScale [.fin false 1000 0, .fin false 300 0] 8 = 0x80 ∧
    (cvtElem .e4m3 .nearest false (.fin false 500 0)).1 = 0x7E ∧ (cvtElem .e4m3 .nearest false (.fin false 500 0)).2.of = true ∧
    (cvtElem .e4m3 .nearest false (.fin false 150 0)).1 = 0x71 := by decide +kernel

/-! ### Places -/

/-- The stack and the offset in it of the pump example (R88). -/
theorem test_pump_address : stackOf 0x1404567890 = 6 ∧ stackOffset 0x1404567890 = 0x2808ACF90 := by decide +kernel

/-- Column 23 has its defective team at physical row 41; column 24 has none (R35, R39, R40). -/
theorem test_remap : let b := { up [] with retired := [(23, (41, true))] };
    (bar0Read b 0x15C = 0x69 ∧ bar0Read b 0x160 = 0x3B ∧ physRow b 23 40 = 40 ∧ physRow b 23 41 = 42 ∧ physRow b 24 41 = 41) ∧
    teamSource b (teamKey ⟨23, 41⟩) = 0x98E := by decide +kernel

/-- Reads of 4 bytes at any offset, against the words they touch (R14); a word that a read does not cover whole gives its bytes. -/
theorem test_unaligned_read : let b := { up [] with retired := [(23, (41, true))] };
    (readBytes (notServed b) b 0x15E 4).2 = [0, 0, 0x3B, 0] ∧ (readBytes (notServed b) b 0x15F 4).2 = [0, 0x3B, 0, 0] ∧
    (readBytes (notServed b) b 0x15C 1).2 = [0x69] ∧ (readBytes (notServed b) b 0x15C 8).2 = [0x69, 0, 0, 0, 0x3B, 0, 0, 0] := by decide +kernel

/-- The lane words of the example of the laser that fades (R339). -/
theorem test_lane_words : oeLane { Lane.init with st := 2, locked := true, start := 8, live := 40 } = 0x00280882 ∧
    oeLane { Lane.init with st := 1, pos := 7, locked := true, start := 7, live := 35 } = 0x002307B9 := by decide +kernel

/-! ### Sessions and rings: the worked examples of their chapters -/

/-- The pages of 340 positions at 61,440 B each (R106). -/
theorem test_pages : let x := { padOn 1 1 with env := { Env.zero with kvPerToken := 61440 } };
    pagesFor x 340 = 638 ∧ pagesFor x 240 = 450 := by decide +kernel

/-- The envelope of the admission example. -/
def envA : Env := { Env.zero with stepBase := 62000, stepPer := 1500, prefillNs := 550, vocab := 96000, maxBatch := 256 }

/-- The block of the admission example: paddock 5 with its envelope; times are in 1/21 ns. -/
def blkA : Block := { up [] with pads := [(5, { padOn 1 1 with env := envA })] }

/-- A session of paddock 5. -/
def slotA : Slot := { Slot.free with st := 1, paddock := 5 }

/-- Turn X and the new turn, after `c` prompt tokens with a first deadline. -/
def rowsA (i c d1 : Nat) : List TurnRow := [⟨0, 1200000, 200, false, 250⟩, ⟨0, d1, c, false, i⟩]

/-- T_gen is 181.143 µs and Q is 123; the turn passes; with I = 150 µs, or with 2,400 tokens and D1 at 2.000 ms, it does not (R257). -/
theorem test_admission : (stepNumbers blkA slotA 72 (rowsA 250 120 1980000)).2.1 / 21 = 181142 ∧
    (stepNumbers blkA slotA 72 (rowsA 250 120 1980000)).2.2.1 = 123 ∧ stepTests blkA slotA 72 (rowsA 250 120 1980000) = true ∧
    stepTests blkA slotA 72 (rowsA 150 120 1980000) = false ∧ stepTests blkA slotA 72 (rowsA 250 2400 2000000) = false := by
  decide +kernel

/-- The 24 bytes of the example's `TURN`, and its `ACCEPTED` completion (R290, R294, R295). -/
theorem test_turn_bytes :
    (bytesOf 24 (desc [(0, 0x03), (32, 0xC31), (64, 0xA3), (80, 120), (96, 40), (128, 0x1234567000)]).toNat : List Byte) =
      [0x03, 0x00, 0x00, 0x00, 0x31, 0x0C, 0x00, 0x00, 0xA3, 0x00, 0x78, 0x00, 0x28, 0x00, 0x00, 0x00,
       0x00, 0x70, 0x56, 0x34, 0x12, 0x00, 0x00, 0x00] ∧
    (compBits 0xC31 1 3 0x80 0x213 0xA3 (1980000 + 2 ^ 48 * 11730000 + 2 ^ 96 * 250)).toNat =
      bitsOf [(0, 0xC31), (32, 0x0001), (48, 0x03), (56, 0x80), (64, 0x213), (96, 0xA3), (128, 0x1E3660), (176, 0xB2FC50), (224, 0xFA)] := by
  decide +kernel

/-- The first record of the example: sequence 1,224, token 20,001, node 0x012, at 1,000,619,000 ns (R296). -/
theorem test_record_bytes : (recBits 1224 0xA3 20001 0x12 0x80000000 1000619000 0 0xC31).toNat =
    bitsOf [(0, 0x00A30000000004C8), (64, 0x00484E21), (96, 0x80000000), (128, 0x3BA43BF8), (192, 0), (224, 0xC31)] := by decide +kernel

/-! ### Faults and power -/

/-- A record of a source and class. -/
def rec0 (src cls : Nat) (comp : Bool) : Rec := ⟨1, src, cls, comp, 0, 0, 0, 0, 0, 0, 0⟩

/-- `SOURCE` of the three records of the example of three faults in one cycle (R462). -/
theorem test_record_source : recWord (rec0 0x0C2 2 false) = 0x40C2 ∧ recWord (rec0 0x100 2 true) = 0xC100 ∧
    recWord (rec0 0x26E 1 true) = 0xA26E := by decide +kernel

/-- The three reports of that example, of paddocks 5 and 9, with record 0x1A3F the newest before. -/
def threeFaults : Block :=
  let x := fun (w c : Nat) => { Pad.init with st := .ready, col := c, env := { Env.zero with width := w, height := 59 } }
  { up [] with pads := [(5, x 40 40), (9, x 4 0)], retired := [(47, (30, true))], flt := { FltS.init with newest := 0x1A3F } }

/-- Their order, whatever order they come in, and the default action of the paddocks of the first two (R460, R467). -/
theorem test_three_faults : (([⟨0x26E, 1, 0, 0, 0, 0, false, false, []⟩, ⟨0x100, 2, 0x9000, 0, 0, 0, false, false, []⟩,
      ⟨0x0C2, 2, 0x022AA62F, 0x155E, 0, 0, false, false, []⟩].filterMap (takeDetect threeFaults)).foldr insRep []).map (fun r => (r.source, r.cls)) =
      [(0x0C2, 2), (0x100, 2), (0x26E, 1)] ∧
    [9, 5].map (fun p => padDefault threeFaults (padGet threeFaults p) 0x0C2) = [1, 1] ∧ nextNum threeFaults.flt.newest = 0x1A40 := by
  decide +kernel

/-- The three paddocks of the example of lending, under a module limit of 1,600.0 W. -/
def lending : Block :=
  let x := fun (w g t c : Nat) => { Pad.init with st := .ready, col := c, gait := g, run := g, target := t, env := { Env.zero with width := w, height := 59 } }
  { up [(0x40000, 16000)] with pads := [(3, x 8 3 3 0), (5, x 40 2 3 40), (7, x 4 1 1 20)] }

/-- The committed sum is 1,427.8 W and the headroom 172.2 W, in units of 1/64 mW; `GAIT_PAD5` reads 0x6E and `GAIT_HEADROOM` 0x6BA
(R437 to R439, R454). -/
theorem test_lending : committedSum lending = 64 * 1427800 ∧ headroom lending = 64 * 172200 ∧ bar0Read lending 0x40114 = 0x6E ∧
    bar0Read lending 0x40008 = 0x6BA := by decide +kernel

/-- Port 5 of width 16 in the fabric, with a reserved load. -/
def reserved (load : Nat) : Block :=
  { up [] with
    fab := { FabS.init with ports := [(5, { FPort.init with st := 2 })], resv := [{ inp := 0, port := 5, src := 1, flow := 2, dst := 3, rate := load }] }
    lnk := [(5, { LPort.init with txMap := List.range 16 })] }

/-- 11.5 GB/s beside 138.0 GB/s fit, and beside 139.0 GB/s they do not (R384). -/
theorem test_reservation : resvFits (reserved 1380) 5 115 = true ∧ resvFits (reserved 1390) 5 115 = false := by decide +kernel

end Sys2Proof.Tests
end

