-- ==== Sys2Proof/Tests/WitnessCore.lean ====
section
/-! SUPPORT. Witnesses of the statements about core commands: for each clause a state and operands that meet its hypotheses together,
at a bound of their range where the clause has one. -/

set_option Elab.async false

namespace Sys2Proof.Tests

open Sys2Proof Sys2Proof.Machine

theorem witness_ScalarResults :
    ∀ e ∈ [Instr.add, .sub, .andOp, .orOp, .xor, .shl, .shr, .sra, .slt, .sltu, .mul, .mulh, .mulhu, .minOp, .maxOp, .addi, .subi, .andi, .ori,
      .xori, .shli, .shri, .srai, .slti, .sltui, .muli, .mulhi, .mulhui, .mini, .maxi], ∀ d ∈ [(0 : BitVec 5), 31],
      Issues (at0 (e th0 ⟨d, 31, 0, 0, 0⟩)).blk th0 (e th0 ⟨d, 31, 0, 0, 0⟩) [] ∧ NextOk (at0 (e th0 ⟨d, 31, 0, 0, 0⟩)).blk th0 := by
  unfold Issues NextOk
  decide +kernel

/-- Taken with equal registers to the last word of the code region, and not taken. -/
theorem witness_BranchResults :
    ∀ e ∈ [Instr.beq, .bne, .blt, .bge, .bltu, .bgeu],
      Issues (at0 (e th0 ⟨0, 0, 0, 0, 7⟩)).blk th0 (e th0 ⟨0, 0, 0, 0, 7⟩) [] ∧
      pcOk (at0 (e th0 ⟨0, 0, 0, 0, 7⟩)).blk 0 (8 * 7) = true ∧ pcOk (at0 (e th0 ⟨0, 0, 0, 0, 7⟩)).blk 0 8 = true := by
  unfold Issues
  decide +kernel

theorem witness_JumpResults :
    Issues (at0 (.jal th0 ⟨1, 0, 0, 0, 7⟩)).blk th0 (.jal th0 ⟨1, 0, 0, 0, 7⟩) [] ∧ pcOk (at0 (.jal th0 ⟨1, 0, 0, 0, 7⟩)).blk 0 (0 + 8 * 7) = true ∧
    Issues (atS (.jalr th0 ⟨1, 1, 0, 0, 8⟩) [(1, 48)]).blk th0 (.jalr th0 ⟨1, 1, 0, 0, 8⟩) [] ∧
    pcOk (atS (.jalr th0 ⟨1, 1, 0, 0, 8⟩) [(1, 48)]).blk 0 ((thrGet (atS (.jalr th0 ⟨1, 1, 0, 0, 8⟩) [(1, 48)]).blk 0).rs 1 + 8) = true := by
  unfold Issues
  decide +kernel

/-- The last bytes of the cistern, in each size, sign-extended too. -/
theorem witness_CisternLoads :
    (∀ e ∈ [(1, 0), (2, 1), (4, 2), (4, 6)], let i := Instr.ld th0 ⟨1, 0, 0, BitVec.ofNat 9 e.2, BitVec.ofNat 32 (40960 - e.1)⟩
      fld (BitVec.ofNat 9 e.2) 0 2 = Nat.log2 e.1 ∧ (BitVec.ofNat 9 e.2).toNat < 8 ∧ 40960 - e.1 + e.1 ≤ 40960 ∧ (40960 - e.1) % 64 + e.1 ≤ 64 ∧
      Issues (at0 i).blk th0 i [] ∧ NextOk (at0 i).blk th0 ∧ CleanLine (at0 i).blk 0 ((40960 - e.1) / 64)) ∧
    (∀ n ∈ [1, 64], let i := Instr.ldv th0 ⟨15, 0, 0, BitVec.ofNat 9 (n - 1), 40896⟩
      (BitVec.ofNat 9 (n - 1)).toNat + 1 = n ∧ 40896 + n ≤ 40960 ∧ 40896 % 64 + n ≤ 64 ∧ Issues (at0 i).blk th0 i [15] ∧ NextOk (at0 i).blk th0 ∧
      CleanLine (at0 i).blk 0 (40896 / 64)) := by
  unfold Issues NextOk CleanLine
  decide +kernel

/-- The first line above the read-only boundary, and the last line. -/
theorem witness_CisternStores :
    (∀ e ∈ [(1, 0, 64), (2, 1, 126), (4, 2, 40956)], let i := Instr.st th0 ⟨0, 0, 1, BitVec.ofNat 9 e.2.1, BitVec.ofNat 32 e.2.2⟩
      (BitVec.ofNat 9 e.2.1).toNat = Nat.log2 e.1 ∧ e.2.2 + e.1 ≤ 40960 ∧ e.2.2 % 64 + e.1 ≤ 64 ∧ (coreGet (at0 i).blk 0).wB ≤ e.2.2 / 64 ∧
      Issues (at0 i).blk th0 i [] ∧ NextOk (at0 i).blk th0 ∧ CleanLine (at0 i).blk 0 (e.2.2 / 64)) ∧
    (∀ n ∈ [1, 64], let i := Instr.stv th0 ⟨0, 0, 15, BitVec.ofNat 9 (n - 1), 64⟩
      (BitVec.ofNat 9 (n - 1)).toNat + 1 = n ∧ 64 % 64 + n ≤ 64 ∧ (coreGet (at0 i).blk 0).wB ≤ 1 ∧ Issues (at0 i).blk th0 i [15] ∧
      NextOk (at0 i).blk th0 ∧ CleanLine (at0 i).blk 0 1) := by
  unfold Issues NextOk CleanLine
  decide +kernel

/-- The first address past the cistern, a line crossed by one byte, and the last line of the code. -/
theorem witness_CisternTraps :
    (∀ e ∈ [(1, 0, 40960), (2, 1, 63), (4, 2, 61)], let x : Fields := ⟨0, 0, 0, BitVec.ofNat 9 e.2.1, BitVec.ofNat 32 e.2.2⟩
      fld x.mod 0 2 = Nat.log2 e.1 ∧ (40960 < e.2.2 + e.1 ∨ 64 < e.2.2 % 64 + e.1) ∧ x.mod.toNat < 4 ∧
      Issues (at0 (.ld th0 x)).blk th0 (.ld th0 x) [] ∧ Issues (at0 (.st th0 x)).blk th0 (.st th0 x) []) ∧
    (∀ e ∈ [(1, 40960), (64, 1)], let x : Fields := ⟨0, 0, 0, BitVec.ofNat 9 (e.1 - 1), BitVec.ofNat 32 e.2⟩
      x.mod.toNat + 1 = e.1 ∧ (40960 < e.2 + e.1 ∨ 64 < e.2 % 64 + e.1) ∧ Issues (at0 (.ldv th0 x)).blk th0 (.ldv th0 x) [0] ∧
      Issues (at0 (.stv th0 x)).blk th0 (.stv th0 x) [0]) ∧
    (let x : Fields := ⟨0, 0, 0, 2, 60⟩;
      x.imm.toNat / 64 < (coreGet (at0 (.st th0 x)).blk 0).wB ∧ Issues (at0 (.st th0 x)).blk th0 (.st th0 x) []) ∧
    (let x : Fields := ⟨0, 0, 0, 63, 0⟩;
      x.imm.toNat / 64 < (coreGet (at0 (.stv th0 x)).blk 0).wB ∧ Issues (at0 (.stv th0 x)).blk th0 (.stv th0 x) [0]) := by
  unfold Issues
  decide +kernel

theorem witness_StreamStart : Issues (at0 (.strm th0 ⟨0, 0, 0, 0, 40959⟩)).blk th0 (.strm th0 ⟨0, 0, 0, 0, 40959⟩) [] ∧
    NextOk (at0 (.strm th0 ⟨0, 0, 0, 0, 40959⟩)).blk th0 ∧ ∀ l < 640, CleanLine (at0 (.strm th0 ⟨0, 0, 0, 0, 40959⟩)).blk 0 l := by
  refine ⟨?_, ?_, fun l _ j _ => rfl⟩
  · unfold Issues
    decide +kernel
  · unfold NextOk
    decide +kernel

theorem witness_VectorArithmetic :
    (∀ e ∈ [Instr.vadd, .vsub, .vmul, .vfma, .vmin, .vmax], ∀ k ∈ [6, 7, 8], let m := BitVec.ofNat 9 k; let i := e th0 ⟨15, 1, 2, m, 0⟩
      Issues (at0 i).blk th0 i [15, 1, 2] ∧ NextOk (at0 i).blk th0) ∧
    (∀ p ∈ [0, 1, 2, 3], ∀ m ∈ [6, 7, 8], let i := Instr.vcmp th0 ⟨0, 1, 15, BitVec.ofNat 9 (m + 16 * p), 0⟩
      Issues (at0 i).blk th0 i [0, 1, 15] ∧ NextOk (at0 i).blk th0) := by
  unfold Issues NextOk
  decide +kernel

theorem witness_VectorBits :
    (∀ e ∈ [Instr.vand, .vor, .vxor, .vsel], let i := e th0 ⟨15, 1, 2, 0, 0⟩
      Issues (at0 i).blk th0 i [15, 1, 2] ∧ NextOk (at0 i).blk th0) ∧
    (let i := Instr.vbcast th0 ⟨15, 31, 0, 0, 0⟩; Issues (at0 i).blk th0 i [15] ∧ NextOk (at0 i).blk th0) ∧
    (let i := Instr.vext th0 ⟨0, 15, 0, 0, 15⟩; Issues (at0 i).blk th0 i [15] ∧ NextOk (at0 i).blk th0) ∧
    (let i := Instr.vins th0 ⟨15, 1, 0, 0, 15⟩; Issues (at0 i).blk th0 i [15] ∧ NextOk (at0 i).blk th0) := by
  unfold Issues NextOk
  decide +kernel

theorem witness_VectorReductions :
    ∀ e ∈ [Instr.vsum, .vmaxr], let i := e th0 ⟨1, 15, 0, 8, 0⟩; Issues (at0 i).blk th0 i [15] ∧ NextOk (at0 i).blk th0 := by
  unfold Issues NextOk
  decide +kernel

theorem witness_SpecialFunctions :
    (∀ e ∈ [Instr.vexp, .vrcp, .vrsq, .vsig, .vsilu], let i := e th0 ⟨15, 1, 0, 0, 0⟩
      Issues (at0 i).blk th0 i [15, 1] ∧ NextOk (at0 i).blk th0) ∧ (f32Val 0xFFC00000).isNan = true ∧
    0x80000000 < (0x80000001 : Word).toNat ∧ (0xFF800000 : Word).toNat ≤ 0xFF800000 := by
  unfold Issues NextOk
  decide +kernel

/-- A core whose accumulators 15 and 0 are in the mode of a format. -/
def accs (float : Bool) : CoreS := { CoreS.init with acc := [(0, { Acc.zero with float := float }), (15, { Acc.zero with float := float })] }

/-- A single dot, a run that wraps round the accumulators and one that wraps round the vectors; a format of the other mode, at once and
at the second dot. -/
theorem witness_DotOfRegisters :
    (∀ e ∈ [(4, 0, 0, 1), (4, 0, 1, 2), (4, 0, 2, 17), (8, 1, 0, 1), (8, 1, 1, 2)],
      let x : Fields := ⟨15, 0, 15, BitVec.ofNat 9 (e.1 + 32 * e.2.2.1), BitVec.ofNat 32 (e.2.2.2 - 1)⟩
      let b := running (padOn 1 1) Thread.parked (accs (decide (e.2.1 = 1))) [.dot th0 x, .dot th0 x]
      (fmtOf (fld x.mod 0 4)).map (·.isMx) = some (decide (e.2.1 = 0)) ∧ x.mod.toNat = fld x.mod 0 4 + 32 * e.2.2.1 ∧
      e.2.2.2 = fld x.imm 0 12 + 1 ∧ fld x.imm 12 10 = 0 ∧
      Issues b th0 (.dot th0 x) ([0] ++ if e.2.2.1 = 2 then (List.range (min 16 e.2.2.2)).map (fun k => (15 + k) % 16) else [15]) ∧
      ((coreGet b 0).ra 15).float = decide (e.2.1 = 1) ∧ (e.2.2.1 = 1 → ((coreGet b 0).ra 0).float = decide (e.2.1 = 1)) ∧ NextOk b th0) ∧
    (let x : Fields := ⟨0, 0, 1, 8 + 32, 1⟩;
      let b := running (padOn 1 1) Thread.parked { CoreS.init with acc := [(0, { Acc.zero with float := true })] } [.dot th0 x];
      Issues b th0 (.dot th0 x) [0, 1] ∧ ((coreGet b 0).ra 0).float = true ∧ ((coreGet b 0).ra 1).float = false) := by
  unfold Issues NextOk
  decide +kernel

/-- A stream that holds one dot of a format, its last byte the last of the cistern where it takes 32; and one byte further. -/
def streaming (d s : Nat) : Thread := { Thread.parked with stream := ⟨d, s, [(639, 5)], [(638, 7)]⟩ }

theorem witness_DotOfStream :
    (∀ e ∈ [(4, false), (6, true)], let x : Fields := ⟨0, 0, 15, BitVec.ofNat 9 (e.1 + 16), 0⟩
      let b := running (padOn 1 1) (streaming 40928 40895) (accs e.2) [.dot th0 x, .dot th0 x]
      (fmtOf (fld x.mod 0 4)).map (fun f => (f.isMx, f.dotBytes, f.dotBlocks)) = some (!e.2, 32, if e.2 then 0 else 1) ∧
      Issues b th0 (.dot th0 x) [15] ∧ ((coreGet b 0).ra 0).float = e.2 ∧ (heldBytes (thrGet b 0).stream.data 40928 32).isSome = true ∧
      (heldBytes (thrGet b 0).stream.scale 40895 1).isSome = true ∧ NextOk b th0) ∧
    (let x : Fields := ⟨0, 0, 15, 4 + 16, 0⟩;
      let b := running (padOn 1 1) (streaming 40929 40895) CoreS.init [.dot th0 x];
      Issues b th0 (.dot th0 x) [15] ∧ ((coreGet b 0).ra 0).float = false ∧ 40960 < 40929 + 32) := by
  unfold Issues NextOk
  decide +kernel

theorem witness_AccumulatorClearAndGet :
    (∀ e ∈ [(0, 0x1FF8001), (1, 0xFFFF)], let i := Instr.aclr th0 ⟨0, 0, 0, BitVec.ofNat 9 e.1, BitVec.ofNat 32 e.2⟩
      Issues (at0 i).blk th0 i [] ∧ NextOk (at0 i).blk th0 ∧ (BitVec.ofNat 32 e.2).toNat < 2 ^ 25 ∧ (e.1 = 1 → (BitVec.ofNat 32 e.2).toNat < 2 ^ 16)) ∧
    (∀ k ∈ [0, 1, 2], let m := BitVec.ofNat 9 k; let i := Instr.aget th0 ⟨1, 15, 0, m, 0⟩; Issues (at0 i).blk th0 i [] ∧ NextOk (at0 i).blk th0) := by
  unfold Issues NextOk
  decide +kernel

theorem witness_AccumulatorReadOut :
    (∀ k ∈ [0, 2, 6], let m := BitVec.ofNat 9 k; let i := Instr.ard th0 ⟨1, 15, 0, m, 0⟩; Issues (at0 i).blk th0 i [] ∧ NextOk (at0 i).blk th0) ∧
    (∀ e ∈ [(0, (15 : BitVec 5), [15, 15]), (14, 0, [15])], let i := Instr.ardv th0 ⟨15, 15, e.2.1, BitVec.ofNat 9 e.1, 15⟩
      Issues (at0 i).blk th0 i e.2.2 ∧ NextOk (at0 i).blk th0) := by
  unfold Issues NextOk
  decide +kernel

/-- Formats of equal, wider and narrower registers at the last PART; one block from FP32 and one from BF16. -/
theorem witness_Conversions :
    (∀ e ∈ [(8, 8, 0), (8, 4, 3), (4, 8, 3), (0, 5, 1), (6, 7, 0)], let x : Fields := ⟨15, 1, 0, BitVec.ofNat 9 (e.1 + 32), BitVec.ofNat 32 (e.2.1 + 16 * e.2.2)⟩
      let i := Instr.cvt th0 x
      ((fmtOf (fld x.mod 0 4)).bind (fun fs => (fmtOf (fld x.imm 0 4)).map (fun fd =>
        decide (fld x.imm 4 4 < max fs.perReg fd.perReg / min fs.perReg fd.perReg)))) = some true ∧ fld x.mod 4 2 ≠ 3 ∧ fld x.imm 8 5 = 0 ∧
      Issues (at0 i).blk th0 i [15, 1] ∧ NextOk (at0 i).blk th0) ∧
    (∀ e ∈ [(8, 4, 1, [15, 14, 15]), (6, 0, 3, [15, 14])], let i := Instr.cvtmx th0 ⟨15, 14, 1, BitVec.ofNat 9 e.1, BitVec.ofNat 32 (e.2.1 + 16 * e.2.2.1)⟩
      ((fmtOf e.2.1).map (fun fd => decide (e.2.2.1 < fd.perReg / 32))) = some true ∧ Issues (at0 i).blk th0 i e.2.2.2 ∧ NextOk (at0 i).blk th0) := by
  unfold Issues NextOk
  decide +kernel

end Sys2Proof.Tests
end

