-- ==== Sys2Proof/Tests/WitnessCtl.lean ====
section
/-! SUPPORT. Witnesses of the statements about attestation, the store, firmware, debug access, register accesses and faults. -/

set_option Elab.async false

namespace Sys2Proof.Tests

open Sys2Proof Sys2Proof.Machine

/-- The module with fuses, key and requests as given, some registers, and ready. -/
def secured (rs : Tbl Word) (x : SecS) : Block := { up rs with sec := x }

/-- Registers of a module in use whose policy allows debugging after an unlock. -/
def openable : Tbl Word := [(0x330000, 2), (0x330004, 1)]

/-! ### Attestation -/

/-- The last leaf that exists, and the first that does not. -/
theorem witness_AttestationStoreAndFirmware_requests :
    (∀ e ∈ [(0, 5, true), (1, 5, true), (2, 1073741823, true), (2, 1073741823, false), (2, 1073741824, true), (3, 5, true)],
      let b := secured [] { SecS.init with lifecycle := e.1, next := e.2.1, usable := e.2.2 }
      isReady b 1 0 = true ∧ b.flt.fatal = false ∧ isReady b 0 0 = true ∧ b.sec.held = none ∧ b.sec.lifecycle = e.1 ∧ b.sec.next = e.2.1 ∧
      b.sec.usable = e.2.2) ∧
    debugLevel (secured [] SecS.init) ≠ 1 ∧
    (∀ n ∈ [none, some 7], let c : Option (BitVec 256) := n.map (BitVec.ofNat 256); let b := secured openable { SecS.init with challenge := c, fwKey := [1] }
      debugLevel b = 1 ∧ b.sec.challenge = c ∧ b.sec.fwKey ≠ [] ∧ b.sec.held = none ∧ isReady b 0 0 = true) ∧
    (127 : Word).toNat < 128 ∧ 128 ≤ (128 : Word).toNat ∧ (secured [] { SecS.init with held := some 7 }).sec.held = some 7 ∧
    (secured [] SecS.init).sec.heldAt + 1000000000 ≤ { secured [] SecS.init with time := 1000000000 }.time := by
  decide +kernel

/-- The words of the store's commands, of `GO` and of `ARB_COMMIT`, at an idle and at a busy store. -/
theorem witness_AttestationStoreAndFirmware_store :
    (∀ op ∈ [0, 1, 2, 3], let w := BitVec.ofNat 32 (op + 4 + 0x53 * 2 ^ 24)
      fld w 24 8 = 0x53 ∧ bit w 2 = true ∧ fld w 0 2 = op) ∧
    (∀ cmd ∈ [none, some ⟨0, 1, [5]⟩, some ⟨1, 0, []⟩, some ⟨2, 0, []⟩], ∀ down ∈ [true, false], ∀ n ∈ [none, some 7],
      let held : Option (BitVec 256) := n.map (BitVec.ofNat 256); let b := { secured [] { SecS.init with cmd := cmd, held := held, upd := none, next := 1073741823 } with flt := { FltS.init with storeDown := down } }
      actServed b = true ∧ b.sec.cmd = cmd ∧ b.flt.storeDown = down ∧ b.sec.held = held ∧ b.sec.next / 1024 ≤ 1048575 ∧ b.sec.upd = none) := by
  decide +kernel

/-- A bundle of a header alone, and the module whose fuses hold the hash of its empty key. -/
def smallBundle : List Byte :=
  bytesOf 16 (0x46575A53 + 128 * 2 ^ 64) ++ sha256 [] ++ List.replicate 208 0

/-- The module with those fuses, and the length of that bundle. -/
def updating (n : Nat) : Block := secured [(0x330068, BitVec.ofNat 32 n), (0x330040, 128)] { SecS.init with root := sha256Nat [] }

/-- It verifies where the free signature check accepts it, at the highest level of the thermometer; one byte less is refused. -/
theorem witness_AttestationStoreAndFirmware_bundle (hp : Config.hssParams [] [] = true) (hv : Config.hssVerify [] smallBundle [] = true) :
    bundleStatus (updating 256) (smallBundle.take (regFld (updating 256) 0x330068 0 24)) = 0 := by
  have e1 : smallBundle.take (regFld (updating 256) 0x330068 0 24) = smallBundle := by decide +kernel
  have e2 : smallBundle.take 256 = smallBundle ∧ smallBundle.length = 256 ∧ bundleLen smallBundle = 256 ∧ leAt smallBundle 0 4 = 0x46575A53 ∧
      leAt smallBundle 8 4 = 128 ∧ leAt smallBundle 0x30 4 = 0 ∧ leAt smallBundle 0x34 4 = 0 ∧ leAt smallBundle 0x0C 4 = 0 ∧
      blown (updating 256).sec.therm = 0 ∧ (updating 256).sec.root = sha256Nat [] ∧ sha256 [] = (smallBundle.drop 0x10).take 32 := by
    decide +kernel
  obtain ⟨h1, h2, h3, h4, h5, h6, h7, h8, h9, h10, h11⟩ := e2
  rw [e1]
  unfold bundleStatus bundleOk
  simp only [h1, h2, h3, h4, h5, h6, h7, h8, h9, h10, ← h11, hp, hv, List.take_zero]
  rfl

theorem witness_AttestationStoreAndFirmware_update :
    (let b := updating 255;
      actServed b = true ∧ fld (0x55000001 : Word) 24 8 = 0x55 ∧ fld (0x55000002 : Word) 24 8 = 0x55 ∧ b.sec.upd = none ∧
      bundleStatus b (smallBundle.take (regFld b 0x330068 0 24)) ≠ 0 ∧ regFld b 0x330040 0 8 ≤ 128 ∧
      bit (0x55000001 : Word) 0 = true ∧ bit (0x55000001 : Word) 1 = false ∧ bit (0x55000002 : Word) 1 = true ∧ bit (0x55000002 : Word) 0 = false) ∧
    (secured [] { SecS.init with upd := some ⟨1, smallBundle⟩ }).sec.upd = some ⟨1, smallBundle⟩ := by
  decide +kernel

/-! ### Debug access and register accesses -/

/-- The module with team (79, 58) selected, or a place outside, and its counter 511 holding a value. -/
def probing (sel v : Nat) (y : Pad) : Block :=
  let b := up [(0x70000, BitVec.ofNat 32 sel)]
  { b with pads := [(0, y)], die := { b.die with ctr := [(512 * (59 * 79 + 58) + 511, v)] } }

/-- A ready paddock at that team, with an entry for virtual ID 4095. -/
def cornerPad : Pad := { padOn 1 1 with col := 79, row := 58, sem := [(4095, some ⟨511, 0, 0, 0⟩)] }

theorem witness_DebugAndRegisterAccesses_poke :
    (let b := probing (511 + 79 * 2 ^ 9 + 58 * 2 ^ 16) 16777215 cornerPad;
      actServed b = true ∧ debugOpen b = true ∧ regFld b 0x70000 9 7 = 79 ∧ regFld b 0x70000 16 6 = 58 ∧ regFld b 0x70000 0 9 = 511 ∧
      padOf b (59 * 79 + 58) = some 0 ∧ tget 0 b.die.ctrErr (512 * (59 * 79 + 58) + 511) = 0 ∧ b.die.waiters = []) ∧
    (∀ op ∈ [0, 1, 2, 3], let w := BitVec.ofNat 32 (1 + op * 2 ^ 24 + 0x2D * 2 ^ 26)
      fld w 26 6 = 0x2D ∧ fld w 24 2 = op) ∧
    regFld (probing (80 * 2 ^ 9) 0 cornerPad) 0x70000 9 7 = 80 ∧ regFld (probing (59 * 2 ^ 16) 0 cornerPad) 0x70000 16 6 = 59 ∧
    (let b := probing 0 0 cornerPad;
      bit (0x80000FFF : Word) 31 = true ∧ fld (0x80000FFF : Word) 12 6 = 0 ∧ fld (0x80000FFF : Word) 0 12 = 4095 ∧ (padGet b 0).st ≠ .free ∧
      translate b 0 4095 = some ⟨511, 0, 0, 0⟩ ∧ translate b 0 4094 = none ∧ (padGet b 1).st = .free) := by
  decide +kernel

theorem witness_DebugAndRegisterAccesses_read :
    (isReady (up []) 1 0 = true ∧ (up []).flt.fatal = false ∧ (up []).pwr.recovery = false ∧ rootRuns (up []) = true ∧ rootRuns Block.reset = false) ∧
    (wideLow 0x20 = false ∧ wideLow 0x1C = false ∧ wideLow 0x10 = true ∧ wideLow 0x14 = false ∧ wideLow (0x14 - 4) = true ∧
      wideLow 0x80 = false ∧ wideLow 0x7C = false ∧ wideLow 0x84 = false) ∧
    (tget none (up []).mgmt.latch (regKey (up []) 0x14) = none ∧
      (let b := { up [] with mgmt := { MgmtS.init with latch := [(0x14, some 5)] } };
        tget none b.mgmt.latch (regKey b 0x14) = some 5)) ∧
    0x20000 / 0x10000 ∉ [0, 1, 3, 5, 6] ∧ 0x20000 / 0x10000 ∉ [0, 1, 0x32, 0x33] := by
  decide +kernel

theorem witness_DebugAndRegisterAccesses_write :
    writeServed (onRing RPair.init) = true ∧ (rpGet (onRing RPair.init) 0).st = 0 ∧ (rpGet (onRing open0) 0).st ≠ 0 ∧
    regFld (onRing open0) 0x20000 0 10 = 0 ∧ (bytesOf 4 (0xFFFFFFFF : Word).toNat).length = 4 ∧
    { up [] with flt := { FltS.init with fatal := true } }.flt.fatal = true := by
  decide +kernel

/-! ### Faults -/

/-- The module with one ready paddock and the collector as given. -/
def faulty (f : FltS) : Block := { up [] with pads := [(0, padOn 1 1)], flt := f }

/-- A report of a source and class. -/
def seenAt (src cls : Nat) : Detect := ⟨src, cls, 0, 0, 0, 0, false, false, []⟩

theorem witness_FaultHandling_cycle :
    (let b := faulty FltS.init;
      clocked b = true ∧ b.flt.fatal = false ∧ b.reports = [] ∧ b.flt.inj = none ∧ b.host.evtOn = false ∧ b.flt.log.length < 4095 ∧
      tget 0 b.flt.rate 0x10 + 1 < regFld b 0x600A0 0 16 ∧ tget 0 b.flt.rate 0x18 + 1 < regFld b 0x600A0 0 16 ∧ b.sec.cmd = none ∧
      (padGet b 0).st = .ready ∧ (padGet b 0).step = none ∧ (padGet b 0).doomed = false ∧ (padGet b 0).faulted = [] ∧ boundSlots b 0 = [] ∧
      padFailed b (padGet b 0) = false ∧ windowOn b (.paddock 0) = false) ∧
    (∀ e ∈ [seenAt 0x10 1, seenAt 0x18 1, seenAt 0x3B0 1, seenAt 0x3B9 1, seenAt 0x110 2, seenAt 3 2, seenAt 0x10 3],
      knownSource e.source = true ∧ e.railBroken = false ∧ e.detailBad = false ∧ hasPlace e.source = false) ∧
    (let b := faulty { FltS.init with rate := [(0x3B0, 1001)] };
      regFld b 0x600A0 0 16 < tget 0 b.flt.rate 0x3B0 ∧ b.flt.promoted = []) ∧
    (let i : Report := ⟨0x10, 1, 0, 0, 0, 0, .none, 0, false, true, false, true⟩;
      (faulty { FltS.init with inj := some i }).flt.inj = some i ∧ i.injected = true ∧ i.railBroken = false ∧ i.cls = 1 ∧ hasPlace i.source = false) := by
  decide +kernel

theorem witness_FaultHandling_pads : ∀ p, (padGet (faulty FltS.init) p).step = none ∧ (padGet (faulty FltS.init) p).doomed = false ∧
    (padGet (faulty FltS.init) p).faulted = [] := by
  intro p
  show (if p = 0 then padOn 1 1 else Pad.init).step = none ∧ (if p = 0 then padOn 1 1 else Pad.init).doomed = false ∧ (if p = 0 then padOn 1 1 else Pad.init).faulted = []
  split <;> exact ⟨rfl, rfl, rfl⟩

/-- A record's window over a unit, its number in the acknowledge register. -/
def windowed (u : FUnit) (y : Pad) : Block :=
  { up [(0x60080, 9)] with pads := [(0, y)], flt := { FltS.init with windows := [⟨9, u, 2, 0⟩] } }

theorem witness_FaultHandling_window :
    (let b := windowed (.paddock 0) { padOn 1 1 with st := .fenced };
      windowsOf b (9 : Word).toNat = [⟨(9 : Word).toNat, .paddock 0, 2, 0⟩] ∧ (padGet b 0).st = .fenced ∧ (padGet b 0).quiet = false ∧ clocked b = true ∧
      b.flt.fatal = false ∧ padFailed b (padGet b 0) = false ∧ actServed b = true ∧ regGet b 0x60080 = 9 ∧ (padGet b 0).back = .ready ∧
      boundSlots b 0 = [] ∧ (padGet b 0).waiters = [] ∧ b.host.evtOn = false) ∧
    (∀ c ∈ [0, 1, 2, 3], let w := BitVec.ofNat 32 (c + 0x46 * 2 ^ 24)
      fld w 24 8 = 0x46 ∧ fld w 0 2 = c) ∧
    (∀ u ∈ [FUnit.hostif, .engine 7], let b := windowed u (padOn 1 1)
      windowsOf b (regGet b 0x60080).toNat = [⟨(regGet b 0x60080).toNat, u, 2, 0⟩] ∧ actServed b = true) ∧
    (∀ t ∈ [1999999, 2000000], let b := { up [] with time := t, flt := { FltS.init with windows := [⟨9, .paddock 0, 2, 0 + windowNs (up [])⟩] } }
      (∀ v ∈ windowsOf b 9, v.ends ≤ b.time ↔ t = 2000000)) ∧
    windowsOf (up [(0x60080, 9)]) 9 = [] := by
  decide +kernel

theorem witness_FaultHandling_arm :
    (∀ e ∈ [(1, 2), (3, 2)], let b := up [(0x600C0, BitVec.ofNat 32 (0x3B9 + e.1 * 2 ^ 13))]
      actServed b = true ∧ bit (0x49000001 : Word) 0 = true ∧ fld (0x49000001 : Word) 24 8 = 0x49 ∧ debugOpen b = true ∧ debugLevel b = e.2 ∧
      regFld b 0x600C0 13 2 = e.1 ∧ knownSource (regFld b 0x600C0 0 13) = true) ∧
    (let b := up openable;
      debugOpen b = false) ∧
    (let b := { up [] with flt := { FltS.init with fatal := true } };
      b.flt.fatal = true ∧ b.flt.stored = false ∧ rootRuns b = true) := by
  decide +kernel

end Sys2Proof.Tests
end

