-- ==== Sys2Proof/Tests/WitnessHost.lean ====
section
/-! SUPPORT. Witnesses of the statements about the host interface, sessions and turns. -/

set_option Elab.async false

namespace Sys2Proof.Tests

open Sys2Proof Sys2Proof.Machine

/-- The shared line, a re-read in progress, and one that a further one follows; a full submission ring and one entry more. -/
theorem witness_Doorbells :
    ((onRing { open0 with door := 1 }).flt.fatal = false ∧ (rpGet (onRing { open0 with door := 1 }) 0).door = 1) ∧
    2 ≤ (rpGet (onRing { open0 with door := 2 }) 0).door ∧
    (regFld (onRing { open0 with door := 1 }) 0x20204 0 16 ≠ 0 ∧ hostStopped (onRing { open0 with door := 1 }) = false) ∧
    (∀ t ∈ [999999, 1000000], let b := { onRing { open0 with door := 1 } with time := t }
      hostStopped b = false ∧ (b.host.polled + 1000 * regFld b 0x20204 0 16 ≤ b.time ↔ t = 1000000)) ∧
    ∀ r ∈ [2, 3], let b := onRing { open0 with door := r, cqTail := 3, cqHead := 2, rqTail := 9, rqHead := 9 }
      let x := rpGet b 0
      hostStopped b = false ∧ x.st = 1 ∧ x.replay = [] ∧ x.unreserved = false ∧ slotsOn b 0 = [] ∧ x.door = r ∧
      ahead 3 x.cqHead ≤ ahead x.cqTail x.cqHead ∧ ahead 9 x.rqHead ≤ ahead x.rqTail x.rqHead ∧
      ahead (64 : Word).toNat x.sqHead ≤ sqSize b 0 ∧ sqSize b 0 < ahead (65 : Word).toNat x.sqHead := by
  decide +kernel

/-- A ring with a last free entry, a malformed descriptor, and a ring with one entry too few for a turn. -/
theorem witness_DescriptorFetch :
    (∀ e ∈ [(desc [(0, 0x31)], 63), (desc [(0, 0x31), (64, 1)], 63), (desc [(0, 3)], 62), (desc [(0, 3)], 63)],
      let b := onRing { open0 with sqTail := 1, cqTail := e.2 }
      let x := rpGet b 0
      ringsRun b = true ∧ canFetch b 0 = true ∧ b.host.visit = 0 ∧ b.host.taken < 16 ∧ x.fetched = [] ∧ x.fence = none ∧ x.reading = none ∧
      CanComplete b 0) ∧
    (let b := onRing { open0 with sqTail := 1, cqTail := 63 };
      let x := rpGet b 0;
      ahead x.cqTail x.cqHead + x.reserved + 1 ≤ cqSize b 0 ∧ cqSize b 0 < ahead x.cqTail x.cqHead + x.reserved + 2 ∧
      formOk b (desc [(0, 0x31)]) = true ∧ formOk b (desc [(0, 0x31), (64, 1)]) = false) := by
  unfold CanComplete
  decide +kernel

theorem witness_NopAndFenceDescriptors :
    (∀ ty ∈ [0x31, 0x30], let b := holding (desc [(0, ty), (32, 7)])
      CanComplete b 0 ∧ b.flt.fatal = false ∧ (rpGet b 0).fetched = [desc [(0, ty), (32, 7)]] ∧ (rpGet b 0).fence = none ∧
      (rpGet b 0).reading = none ∧ fld (desc [(0, ty), (32, 7)]) 0 8 = ty ∧ formOk b (desc [(0, ty), (32, 7)]) = true) ∧
    ∀ scope ∈ [0, 1], let b := onRing { open0 with fence := some (7 + 2 ^ 32 * 0x30, scope), reserved := 1 }
      CanComplete b 0 ∧ (rpGet b 0).fence = some (7 + 2 ^ 32 * 0x30, scope) ∧ (rpGet b 0).fetched = [] ∧ (rpGet b 0).reading = none ∧
      (rpGet b 0).opens = 0 ∧ (rpGet b 0).held = [] ∧ b.pair.held = [] ∧ pairTurns b 0 = [] := by
  unfold CanComplete
  decide +kernel

/-- Ring pair 5 with given sizes, and an event ring of 64 entries. -/
def configured (size : Nat) : Block :=
  up [(0x20000, 5), (0x20008 + 2 ^ 22 * 6, BitVec.ofNat 32 (size + size * 256 + size * 65536)), (0x20100, 6 * 256)]

/-- The same with the event ring enabled and pair 5 in a given state. -/
def speaking (x : RPair) : Block :=
  { configured 6 with host := { HostS.init with evtOn := true, pairs := [(5, x)] } }

theorem witness_RingsEnableAndDrain :
    (∀ n ∈ [5, 6, 16, 17], let b := configured n
      actServed b = true ∧ hostStopped b = false ∧ regFld b 0x20000 0 10 = 5 ∧ (3 : Word).getLsbD 0 = true ∧ (3 : Word).getLsbD 1 = true ∧
      (rpGet b 5).st = 0 ∧ (rpGet b 5).held = [] ∧ slotsOn b 5 = [] ∧ fld (ringReg b 5 0x20008) 0 5 = n ∧ fld (ringReg b 5 0x20008) 8 5 = n ∧
      fld (ringReg b 5 0x20008) 16 5 = n ∧ b.host.busy = false ∧ b.host.evtOn = false ∧ writeServed b = true) ∧
    (∀ n ∈ [1, 3], (rpGet (speaking { RPair.init with st := n }) 5).st = n ∧ (2 : Word).getLsbD 0 = false ∧
      actServed (speaking { RPair.init with st := n }) = true ∧ hostStopped (speaking { RPair.init with st := n }) = false) ∧
    (let b := speaking { RPair.init with st := 2 };
      CanEvent b ∧ (rpGet b 5).st = 2 ∧ (rpGet b 5).fetched = [] ∧ (rpGet b 5).reading = none ∧ (rpGet b 5).fence = none ∧
      (rpGet b 5).opens = 0 ∧ (rpGet b 5).replay = [] ∧ slotsOn b 5 = []) ∧
    (writeServed (speaking RPair.init) = true ∧ (speaking RPair.init).host.evtOn = true) ∧
    (0x601 : Word).getLsbD 0 = true ∧ fld (0x601 : Word) 8 5 = 6 ∧ fld (0x1001 : Word) 8 5 = 16 := by
  unfold CanEvent
  decide +kernel

theorem witness_HostInterfaceReset :
    (writeServed (onRing open0) = true ∧ isReady (onRing open0) 1 0 = true ∧ (onRing open0).flt.fatal = false ∧
      (onRing open0).flt.waits = [] ∧ (onRing open0).host.early = [] ∧ (onRing open0).host.earlyEvt = false) ∧
    (0x4B000001 : Word).getLsbD 0 = true ∧ fld (0x4B000001 : Word) 24 8 = 0x4B ∧ (0x4B000000 : Word).getLsbD 0 = false ∧
    fld (0x4A000001 : Word) 24 8 ≠ 0x4B := by
  decide +kernel

/-- A module with one vector in a given state, moderated by 1. -/
def vectored (v : Fin 2048) (x : Vec) : Block :=
  let b := up [(0x2A000 + 4 * v.val, 256)]
  { b with host := { b.host with vecs := [(v.val, x)] }, time := 100 }

theorem witness_MsixMessages :
    ∀ e ∈ [((0 : Fin 2048), Vec.mk 0x1000 5 true true 1 0), (2047, Vec.mk 0x1000 5 true false 1 0), (0, Vec.mk 0x1000 5 false false 1 0)],
      hostStopped (vectored e.1 e.2) = false ∧ 0 < (vecGet (vectored e.1 e.2) e.1).count ∧
      regFld (vectored e.1 e.2) (0x2A000 + 4 * e.1.val) 8 16 ≠ 0 ∧ vecGet (vectored e.1 e.2) e.1 = e.2 ∧
      (vecGet (vectored e.1 e.2) e.1).since + 100 * regFld (vectored e.1 e.2) (0x2A000 + 4 * e.1.val) 8 16 ≤ (vectored e.1 e.2).time := by
  decide +kernel

/-! ### Sessions and turns -/

/-- A paddock that serves sessions: logits, a target of 16 tree rows, and its draft. -/
def served : Tbl Pad :=
  [(0, { padOn 1 1 with env := { Env.zero with width := 1, height := 1, role := 5, vocab := 64, treeMax := 17, maxBatch := 4, stepBase := 1,
                                               stepPer := 1, prefillNs := 1 }, kv := [40000] }),
   (1, { padOn 1 1 with col := 1, env := { Env.zero with width := 1, height := 1, role := 3, vocab := 64 } })]

/-- That module with pair 0 holding a descriptor, one slot, and pace class 1 live. -/
def serving (d : Line) (n : Nat) (z : Slot) : Block :=
  { holding d with pads := served, sess := { slots := [(n, z)], pace := [(1, 1000000, 5, 100000, true)], captured := [] } }

/-- `SESSION_OPEN` with speculation of levels 1 and 16, and without. -/
def opening : Line := desc [(0, 1), (64, 0), (72, 129), (80, 1), (88, 2), (128, 9), (256, 0), (384, 1), (392, 16)]

/-- The slots 0 to 16383, all open. -/
def full : Tbl Slot := (List.range 16384).map (fun i => (i, { Slot.free with st := 1 }))

theorem tget_map_const {α : Type} (d v : α) (l : List Nat) (m : Nat) (h : m ∈ l) : tget d (l.map (fun i => (i, v))) m = v := by
  induction l with
  | nil => cases h
  | cons x l ih =>
    by_cases hx : x = m
    · simp [tget, hx]
    · have h' : m ∈ l := (List.mem_cons.1 h).resolve_left (fun e => hx e.symm)
      have h'' : m ≠ x := fun e => hx e.symm
      simp [tget, h'', ih h']

/-- The module holding a `SESSION_OPEN` with a given session table. -/
def tabled (l : Tbl Slot) : Block := { serving opening 0 Slot.free with sess := { slots := l, pace := [], captured := [] } }

theorem tabled_slot (l : Tbl Slot) (m : Nat) : slotGet (tabled l) m = tget Slot.free l m := rfl

/-- Every slot of a full table is open. -/
theorem witness_SessionsAndTurns_full : ∀ m < 16384, (slotGet (tabled full) m).st ≠ 0 := by
  intro m hm
  have h : tget Slot.free full m = { Slot.free with st := 1 } := tget_map_const _ _ _ _ (List.mem_range.2 hm)
  rw [tabled_slot, h]
  exact Nat.one_ne_zero

theorem witness_SessionsAndTurns_open : let b := serving opening 1 Slot.free
    CanComplete b 0 ∧ (rpGet b 0).fetched = [opening] ∧ (rpGet b 0).fence = none ∧ (rpGet b 0).reading = none ∧ formOk b opening = true ∧
    fld opening 0 8 = 1 ∧ isReady b 8 0 = true ∧ (slotGet b 0).st = 0 ∧ fld opening 64 6 = 0 ∧ (padGet b 0).st = .ready ∧
    (padGet b 0).peerDrain = false ∧ (padGet b 0).env.logits = true ∧ (padGet b 0).env.split = false ∧ (padGet b 0).env.draft = false ∧
    (paceOf b (fld opening 80 4)).2.2.2 = true ∧ fld opening 96 10 = 0 ∧ (rpGet b 0).st ≠ 2 ∧
    (dWidths opening).take (fld opening 88 8) = [1, 16] ∧ [1, 16].sum ≤ (padGet b 0).env.treeMax ∧ bit opening 79 = true ∧
    fld opening 72 6 = 1 ∧ (padGet b 1).st = .ready ∧ (padGet b 1).peerDrain = false ∧ (padGet b 1).env.draft = true ∧
    (padGet b 1).env.vocab = (padGet b 0).env.vocab ∧ (padGet b 0).env.target = true ∧ (padGet b 0).tampered = false := by
  unfold CanComplete
  decide +kernel

/-- A `TURN` with its prompt inline, and one whose prompt the host holds. -/
def turning (inline : Nat) : Line := desc ([(0, 3), (9, inline), (32, 77), (64, 2), (80, 2), (96, 3)] ++ if inline = 1 then [(128, 5), (160, 6)] else [(128, 64)])

theorem witness_SessionsAndTurns_close :
    (∀ st ∈ [0, 1, 2, 3], let b := serving (desc [(0, 2), (64, 2)]) 2 { Slot.free with st := st }
      CanComplete b 0 ∧ (rpGet b 0).fetched = [desc [(0, 2), (64, 2)]] ∧ (rpGet b 0).fence = none ∧ (rpGet b 0).reading = none ∧
      formOk b (desc [(0, 2), (64, 2)]) = true ∧ fld (desc [(0, 2), (64, 2)]) 0 8 = 2 ∧ isReady b 8 0 = true ∧
      fld (desc [(0, 2), (64, 2)]) 64 14 = 2 ∧ (slotGet b 2).st = st ∧ (slotGet b 2).closing = none) := by
  unfold CanComplete
  decide +kernel

theorem witness_SessionsAndTurns_turn :
    (∀ e ∈ [0, 1], let b := serving (turning e) 2 { Slot.free with st := 1 }
      CanComplete b 0 ∧ (rpGet b 0).fetched = [turning e] ∧ formOk b (turning e) = true ∧ fld (turning e) 0 8 = 3 ∧ fld (turning e) 64 14 = 2 ∧
      (slotGet b 2).st ≠ 3 ∧ (rpGet b 0).st ≠ 0) ∧
    (inlinePrompt (turning 1)).all (fun w => decide (fld w 18 14 = 0)) = true ∧ bit (turning 1) 9 = true ∧ bit (turning 0) 9 = false := by
  unfold CanComplete
  decide +kernel

theorem witness_SessionsAndTurns_closeDone :
    (let b := { serving 0 2 { Slot.free with st := 1, closing := some (0, 7) } with host := { HostS.init with pairs := [(0, open0)] } };
      CanComplete b 0 ∧ (slotGet b 2).turns = [] ∧ (slotGet b 2).held = [] ∧ b.pair.held = [] ∧ (slotGet b 2).closing = some (0, 7) ∧ ptEntries b 2 = []) := by
  unfold CanComplete
  decide +kernel

/-- A turn of three tokens that has been read for slot 2, and the module with it. -/
def readTurn (gen : Nat) : Reading := ⟨2, gen, 77, false, [5, 6], [0], false, 0, 0⟩

/-- The module that holds it, with a slot in a given state. -/
def admitting (gen st stepPer : Nat) : Block :=
  { serving 0 2 { Slot.free with st := st, pace := 1 } with
    host := { HostS.init with pairs := [(0, { open0 with reading := some (readTurn gen), reserved := 2 })] }
    pads := [(0, { padOn 1 1 with env := { Env.zero with width := 1, height := 1, role := 1, vocab := 64, maxBatch := 4, stepBase := 1, stepPer := stepPer, prefillNs := 1 } })] }

theorem witness_SessionsAndTurns_admission :
    (∀ e ∈ [(1, 1), (1, 100000000), (0, 1)], let b := admitting 3 e.1 e.2
      CanComplete b 0 ∧ (rpGet b 0).fetched = [] ∧ (rpGet b 0).fence = none ∧ (rpGet b 0).reading = some (readTurn 3) ∧ (slotGet b 2).st = e.1 ∧
      turnsFirst b (slotGet b 2) 0 = true ∧ emergency b = false ∧ (padGet b 0).env.split = false ∧ (padGet b 0).dead = false ∧ (slotGet b 2).spec = false ∧ growth b 2 5 = 0) ∧
    (∀ e ∈ [(1, true), (100000000, false)], let b := admitting 3 1 e.1
      let r := readTurn 3
      admitReady b r = 0 ∧ admitRoom b r = true ∧ stepTests b (slotGet b 2) (admitCount b r) (admitRows b r (newTurn b 0 r)) = e.2) := by
  unfold CanComplete
  decide +kernel

theorem witness_SessionsAndTurns_pace : actServed (admitting 3 1 1) = true ∧ writeServed (admitting 3 1 1) = true := by
  decide +kernel

end Sys2Proof.Tests
end

