-- ==== Sys2Proof/Tests/WitnessNet.lean ====
section
/-! SUPPORT. Witnesses of the statements about optical engines, the link, the fabric and the redundant pair. -/

set_option Elab.async false

namespace Sys2Proof.Tests

open Sys2Proof Sys2Proof.Machine

/-- A port that is up, with nothing in flight. -/
def upPort : LPort := { LPort.init with st := 2, rxAny := true, txMap := List.range 16, rxMap := List.range 16 }

/-- Port 31 with its link, its optical side and some of its lanes (receiving, wavelength, state); engine 7 is on and trained. -/
def linked (rs : Tbl Word) (x : LPort) (o : OPort) (l : List (Bool × Nat × Lane)) : Block :=
  { up rs with lnk := [(31, x)], opt := { OptS.init with eng := [(7, ⟨true, false, true, false, [], []⟩)], ports := [(31, o)],
                                                          lanes := l.map (fun e => (36 * 31 + (if e.1 then 18 else 0) + e.2.1, e.2.2)) } }

/-- A lane in a state. -/
def lane (st : Nat) : Lane := { Lane.init with st := st }

/-! ### Optical engines -/

theorem witness_OpticalEngines_start :
    (∀ e ∈ [(0, 0), (1, 1), (2, 0)], let b := linked [] { LPort.init with st := e.1 } { OPort.init with phase := e.2 } []
      canStart b 31 = true ∧ (lpGet b 31).st = e.1 ∧ (opGet b 31).phase = e.2 ∧ (engGet b 7).resetting = false ∧ portRouted b 31 = false) ∧
    (let b := linked [(0x170004, 8)] LPort.init OPort.init [(true, 3, { Lane.init with failed := true })];
      portRouted b 31 = true ∧ linkStarts b (linkNo 31 15) = true ∧ linkStarts b (linkNo 31 3) = false) ∧
    (∀ e ∈ [(1, true), (0, true), (0, false)], let b := linked [] upPort { OPort.init with phase := e.1 } [(true, 17, { lane 5 with testing := e.2 }), (true, 3, { lane 5 with testing := true })]
      (laneGet b 31 true 17).testing = e.2 ∧ (opGet b 31).phase = e.1 ∧ portRouted b 31 = false ∧ 3 < 18 ∧ 3 ≠ 17 ∧ (laneGet b 31 true 3).testing = true) ∧
    (((List.replicate 6 4026 ++ [4027]).take 21).takeWhile (fun e => e ≤ 4026)).length = 6 ∧
    (((List.replicate 7 4026 ++ [4027]).take 21).takeWhile (fun e => e ≤ 4026)).length = 7 ∧
    (∀ e ∈ [(1, true), (0, false)], let b := linked [] { upPort with st := e.1 } OPort.init [(true, 17, lane 4), (false, 17, lane 4), (false, 3, lane 1), (true, 2, lane 7)]
      portRouted b 31 = false ∧ (laneGet b 31 false 17).st = 4 ∧ (opGet b 31).phase ≠ 1 ∧ (laneGet b 31 true 2).st ∈ [2, 4, 5, 7] ∧
      (laneGet b 31 false 3).st = 1 ∧ (lpGet b 31).bounds = [] ∧ (laneGet b 31 true 16).st = 0 ∧ (laneGet b 31 true 2).st ≠ 4) := by
  decide +kernel

/-- The last test of a port start, with every other lane of port 31 in state 5 at a result. -/
def lastTest (v : Int) : Block :=
  linked [] { LPort.init with st := 1 } { OPort.init with phase := 1 }
    ([true, false].flatMap (fun rx => (List.range 18).map (fun k => (rx, k, { lane 5 with testing := rx && decide (k = 17), result := some v }))))

/-- All other lanes pass with 3.0 dB, or fail at 2.5 dB; a spare's test after service. -/
theorem witness_OpticalEngines_tests :
    (∀ r ∈ [true, false], ∀ j < 18, (r = true ∧ j = 17) ∨ ((laneGet (lastTest 6) 31 r j).testing = false ∧ (laneGet (lastTest 6) 31 r j).result = some 6 ∧
      (laneGet (lastTest 6) 31 r j).dead = false ∧ (laneGet (lastTest 6) 31 r j).st ≠ 0)) ∧
    ((laneGet (lastTest 6) 31 true 17).testing = true ∧ (laneGet (lastTest 6) 31 true 17).dead = false ∧ (laneGet (lastTest 6) 31 true 17).st ≠ 0 ∧
      portRouted (lastTest 6) 31 = false ∧ (opGet (lastTest 6) 31).phase = 1) ∧
    (∀ j < 18, j ≠ 17 → (laneGet (lastTest 5) 31 true j).result = some 5) := by
  decide +kernel

theorem witness_OpticalEngines_spareTests :
    (let b := linked [] upPort { OPort.init with rx := some ⟨0, 3, 0, false⟩ } [(true, 17, { lane 5 with testing := true }), (false, 17, { lane 5 with testing := true })];
      (∀ rx ∈ [true, false], (laneGet b 31 rx 17).testing = true ∧ (laneGet b 31 rx 17).st ≠ 6) ∧ (opGet b 31).phase ≠ 1 ∧ (opGet b 31).rx ≠ none) := by
  decide +kernel

/-- Margins of 2.00 dB and of 1.99 dB against a start of 4 steps. -/
theorem witness_OpticalEngines_margin :
    (∀ n ∈ [0, 1, 2], let b := linked [] upPort OPort.init [(true, 0, { lane 1 with start := 4, below2 := n }), (true, 17, lane 2)]
      let x := laneGet b 31 true 0
      (lpGet b 31).rxSleep = 0 ∧ (lpGet b 31).rxWoke = 0 ∧ x.st = 1 ∧ portRouted b 31 = false ∧ 200 ≤ 50 * (x.start : Int) + (0 - x.fs) ∧ 50 * (x.start : Int) + (-1 - x.fs) < 200 ∧
      x.below2 = n ∧ x.below1 < 2 ∧ freeSpare b 31 true = some 17 ∧ (opGet b 31).rx = none ∧ (opGet b 31).wait = [] ∧
      (lpGet b 31).bounds = []) ∧
    (let b := linked [] { upPort with rxWoke := 7 } OPort.init [(true, 0, { lane 1 with below1 := 2 })];
      freeSpare b 31 true = none ∧ (laneGet b 31 true 0).below1 = 2 ∧ (lpGet b 31).rxWoke ≠ 0 ∧ b.time < 7 + 100000) ∧
    (laneGet (linked [] upPort OPort.init []) 31 true 0).st ≠ 1 ∧ (laneGet (linked [] upPort OPort.init []) 31 true 0).st ≠ 3 := by
  decide +kernel

/-- Tones at their edges, powers at 8.21 dBm and 6.49 dBm, and no power. -/
theorem witness_OpticalEngines_lasers :
    (∀ k < 18, toneOk k (((List.range 18).map (fun k => some ((10 + k) * 1000 - 100))).getD k none) = true) ∧
    (∀ k < 18, toneOk k (((List.range 18).map (fun k => some ((10 + k) * 1000 + 101))).getD k none) = false) ∧
    (∀ p ∈ fibrePorts 15, ∀ rx ∈ [true, false], ∀ k < 18, (laneGet (linked [] upPort OPort.init [(true, 17, lane 2)]) p rx k).st ≠ 1) ∧
    (let b := linked [] upPort OPort.init [(true, 17, lane 2)];
      let x := laneGet b (4 * 7 + 143 / 36) (decide (18 ≤ 143 % 36)) (143 % 18);
      x.st = 2 ∧ x.dead = false ∧ x.mislocks = 0 ∧ x.failed = false ∧ x.testing = false ∧ (opGet b (4 * 7 + 143 / 36)).phase ≠ 1 ∧
      (lpGet b (4 * 7 + 143 / 36)).rxSleep ≠ 2 ∧ (lpGet b (4 * 7 + 143 / 36)).txSleep ≠ 2) ∧
    (laneGet (linked [] upPort OPort.init [(true, 17, { lane 2 with mislocks := 2 })]) 31 true 17).mislocks = 2 ∧
    ((∀ k < 18, (List.replicate 18 (some (821 : Int))).getD k none = some 821) ∧
      (∀ k < 17, (List.replicate 17 (some (821 : Int)) ++ [some 649]).getD k none = some 821) ∧
      (List.replicate 17 (some (821 : Int)) ++ [some 649]).getD 17 none = some 649) ∧
    (let b := linked [] LPort.init OPort.init [];
      (laserGet b 15 17).low = false ∧ tget none b.opt.spares 17 = none ∧ spareRefused b 17 = false ∧ bit (regGet b 0x100800) 1 = false ∧
      15 ∉ b.opt.lost ∧ ∀ p ∈ fibrePorts 15, portRouted b p = false ∧ (opGet b p).phase ≠ 1 ∧ ∀ l ∈ portLinks b p, (lpGet b l).st = 0) := by
  decide +kernel

theorem witness_OpticalEngines_spares :
    (∀ g ∈ [true, false], ∀ t ∈ [499999999, 500000000], let b := { up [] with opt := { OptS.init with spares := [(17, some ⟨15, 0, g⟩)] }, time := t }
      tget none b.opt.spares 17 = some ⟨15, 0, g⟩ ∧ isReady b 0 0 = true ∧ (0 + 500000000 ≤ b.time ↔ t = 500000000)) ∧
    byteAt [2] 0 = 2 ∧ byteAt [3] 0 = 3 ∧ byteAt [1] 0 = 1 := by
  decide +kernel

theorem witness_OpticalEngines_migration :
    (let b := linked [] upPort OPort.init [(false, 0, { lane 1 with pos := 3 }), (false, 17, lane 2)];
      (lpGet b 31).st = 2 ∧ (laneGet b 31 false 17).st = 2 ∧ (opGet b 31).tx = none ∧ (laserGet b (fibreOf 31) 0).power = none ∧
      (laserGet b (fibreOf 31) 0).low = false ∧ (laneGet b 31 false 16).st ≠ 2) ∧
    (let b := linked [] upPort { OPort.init with rx := some ⟨0, 17, 3, false⟩ } [(true, 0, lane 1), (true, 17, { lane 3 with start := 6 })];
      let x := laneGet b 31 true 17;
      (opGet b 31).rx = some ⟨0, 17, 3, false⟩ ∧ 300 ≤ 50 * (x.start : Int) + (0 - x.fs) ∧ 50 * (x.start : Int) + (-1 - x.fs) < 300 ∧
      ∀ j < 18, j ≠ 17 → (laneGet b 31 true j).st ≠ 2) := by
  decide +kernel

theorem witness_OpticalEngines_boundary :
    (∀ rx ∈ [true, false], ∀ e ∈ [(17, 63, none), (17, 64, none), (18, 64, none), (18, 64, some 2)],
      let v : Bound := ⟨rx, 0, e.1, 64, some 5, e.2.2⟩
      let b := linked [] { upPort with flits := e.2.1, rxFlits := e.2.1, bounds := [v] } OPort.init [(rx, 0, lane 1), (rx, 17, lane 3), (rx, 1, lane 1)]
      (lpGet b 31).bounds.find? (fun e => e.rx = rx) = some v ∧ (laneGet b 31 rx v.old).st = 1 ∧ (lpGet b 31).ctl = [] ∧ portRouted b 31 = false ∧
      (∀ j < 18, (laneGet b 31 true j).st ≠ 2) ∧ (opGet b 31).cal = none ∧ (opGet b 31).farCal ≠ some v.old ∧ tget none b.opt.spares v.old = none ∧
      v.old ∉ (opGet b 31).retrain ∧ (laneGet b 31 rx 1).st = 1 ∧ b.fab.resv = []) := by
  decide +kernel

theorem witness_OpticalEngines_loss :
    (let b := linked [] upPort OPort.init [(true, 0, lane 1), (true, 17, lane 1)];
      (laneGet b 31 true 17).st = 1 ∧ portRouted b 31 = false ∧ (lpGet b 31).st = 2 ∧ (laneGet b 31 true 0).st = 1 ∧ (∀ j < 18, (laneGet b 31 true j).st ≠ 2) ∧
      b.fab.resv = [] ∧ (laneGet b 31 true 5).st ≠ 1 ∧ (laneGet b 31 true 5).st ≠ 3) := by
  decide +kernel

/-- A calibration of wavelength 17 of port 31, asked for by pair 0. -/
def calDesc : Line := desc [(0, 0x20), (64, 31), (72, 17)]

/-- The module with that descriptor, its port and lanes. -/
def calibrating (st : Nat) (c : Option Cal) (l : List (Bool × Nat × Lane)) : Block :=
  { linked [] { upPort with st := st } { OPort.init with cal := c } l with host := (holding calDesc).host, regs := (holding calDesc).regs }

theorem witness_OpticalEngines_calibration :
    (∀ e ∈ [(0, none), (2, none), (2, some ⟨0, 7, 3, 0, false⟩)], let b := calibrating e.1 e.2 [(false, 17, lane 1), (false, 3, lane 2)]
      AtHead b 0 calDesc 0x20 ∧ fld calDesc 64 5 = 31 ∧ fld calDesc 72 8 = 17 ∧ (lpGet b 31).st = e.1 ∧ portRouted b 31 = false ∧ (opGet b 31).cal = e.2 ∧
      calSpare b 31 false 17 = true ∧ calSpare b 31 true 17 = true ∧ (laneGet b 31 true 17).st ≠ 3 ∧ (laneGet b 31 false 17).st ≠ 3) ∧
    (let b := calibrating 2 none [(true, 17, lane 1), (true, 3, lane 2)];
      (laneGet b 31 true 17).st = 1 ∧ freeSpare b 31 true = some 3 ∧ calSpare b 31 true 17 = true ∧ (opGet b 31).rx = none ∧ (opGet b 31).wait = []) ∧
    calSpare (calibrating 2 none [(true, 17, lane 1)]) 31 true 17 = false ∧
    (let b := calibrating 2 (some ⟨0, 7, 17, 0, false⟩) [(false, 17, lane 1)];
      (opGet b 31).cal = some ⟨0, 7, 17, 0, false⟩ ∧ (laneGet b 31 false 17).st = 1) ∧
    (let b := calibrating 2 (some ⟨0, 7, 17, 0, false⟩) [(false, 17, lane 6), (true, 17, lane 6)];
      (laneGet b 31 false 17).dead = false ∧ (laneGet b 31 true 17).dead = false ∧
      (opGet b 31).cal = some ⟨0, 7, 17, 0, false⟩ ∧ (laneGet b 31 false 17).st = 6 ∧ (laneGet b 31 true 17).st = 6 ∧ CanComplete b 0 ∧ 0 ≤ b.time ∧
      missingPos b 31 = none ∧ (opGet b 31).wait = []) := by
  unfold AtHead CanComplete
  decide +kernel

theorem witness_OpticalEngines_engine :
    (let b := linked [] LPort.init OPort.init [];
      actServed b = true ∧ pairPort b = none ∧ (∀ p ∈ engPorts 7, portRouted b p = false ∧ ∀ l ∈ portLinks b p, (lpGet b l).st = 0) ∧
      loopRx 575 = true ∧ loopRx 570 = false ∧ (laneGet b 31 true 17).st ≠ 1 ∧ loopsHeld b 31 true 17 = false) ∧
    (let b := linked [] { upPort with rxSleep := 1 } OPort.init [(true, 17, lane 1), (false, 17, lane 1)];
      portRouted b (4 * 7 + 575 / 144) = false ∧ (laneGet b (4 * 7 + 575 / 144) true (575 % 144 / 8)).st = 1 ∧
      (lpGet b (4 * 7 + 575 / 144)).rxSleep = 1 ∧ (laneGet b (4 * 7 + 570 / 144) false (570 % 144 / 8)).st = 1) ∧
    (let b := { linked [] LPort.init OPort.init [] with opt := { OptS.init with eng := [(7, ⟨false, true, true, true, [], []⟩)] } };
      (engGet b 7).resetting = true ∧ pairPort b = none ∧ bit (regGet b (engBase 7)) 0 = false ∧ 31 ∈ engPorts 7 ∧ ∀ p ∈ engPorts 7, (lpGet b p).st = 0) ∧
    (bit (4 : Word) 1 = false ∧ bit (4 : Word) 2 = true ∧ bit (0x4F000003 : Word) 2 = false ∧ bit (0x4F000003 : Word) 1 = true ∧
      fld (0x4F000003 : Word) 24 8 = 0x4F ∧ fld (0x4E000003 : Word) 24 8 ≠ 0x4F ∧ bit (0x4E000003 : Word) 2 = false) := by
  decide +kernel

theorem witness_OpticalEngines_reset : Memory.wf (linked [] LPort.init OPort.init []) = true := by
  decide +kernel

/-! ### The link -/

/-- A flit of a header and a payload, with the CRC that R341 gives it. -/
def flitOf (h : Dword) (l : List Byte) (ctl : List (Byte × CtlMsg)) (echoes : List Byte) : Flit :=
  ⟨h, pad240 l, crc64 (bytesOf 8 h.toNat ++ pad240 l), ctl, echoes⟩

theorem flitOf_ok (x : LPort) (h : Dword) (l : List Byte) (ctl : List (Byte × CtlMsg)) (echoes : List Byte) (he : fld h 40 8 = x.rxEpoch)
    (ht : fld h 13 2 ≠ 3) : flitOk x (flitOf h l ctl echoes) = true := by
  have hl : (pad240 l).length = 240 := by
    unfold pad240
    rw [List.length_take, List.length_append, List.length_replicate]
    omega
  simp [flitOk, flitOf, hl, he, ht]

/-- Headers of type 0 to 3, without and with an acknowledgement of sequence 4095, and of another epoch. -/
theorem witness_GuicaLink_flit :
    (∀ ty ∈ [0, 1, 2], flitOk upPort (flitOf (BitVec.ofNat 64 (ty * 2 ^ 13)) [] [] []) = true) ∧
    fld (0x6000 : Dword) 13 2 = 3 ∧ fld (0x10000000000 : Dword) 40 8 ≠ upPort.rxEpoch ∧
    (upPort.st = 2 ∧ upPort.txq = [] ∧ upPort.bufReq = [] ∧ upPort.partReq = [] ∧ upPort.owedReq < 31 ∧ upPort.owedRsp < 32 ∧ upPort.txSleep = 0 ∧ upPort.rxAny = true) := by
  refine ⟨?_, by decide, by decide, by decide⟩
  intro ty h
  exact flitOf_ok upPort _ _ _ _ (by revert ty; decide) (by revert ty; decide)

theorem witness_GuicaLink_ack :
    (∀ e ∈ [(1, 1), (2, 1), (1, 2), (1, 3)], let x : LPort := { upPort with txNext := 1, replay := List.replicate e.1 (0, false, []), sent := 3 }
      let f := flitOf (BitVec.ofNat 64 (2 ^ 15 + (4096 - e.2) % 4096 * 2 ^ 16)) [] [] []
      fld f.header 13 2 = 0 ∧ bit f.header 15 = true ∧ bit f.header 28 = false ∧ fld f.header 40 8 = x.rxEpoch ∧
      (x.txNext + 4095 - fld f.header 16 12) % 4096 = e.2 ∧ (x.replay.length ≤ e.2 ↔ e.1 ≠ 2) ∧ (e.2 < x.sent ↔ e.2 ≠ 3)) ∧
    bit (BitVec.ofNat 64 (2 ^ 28)) 28 = true := by
  decide +kernel

/-- A data flit of the sequence due, the last sequence ahead and the first that lies behind; the last payload that holds no packet. -/
theorem witness_GuicaLink_data :
    (let f := flitOf (BitVec.ofNat 64 (2 ^ 13)) (bytesOf 2 4095) [] [];
      fld f.header 13 2 = 1 ∧ bit f.header 15 = false ∧ fld f.header 0 12 = upPort.rxNext ∧ bit f.header 12 = false ∧ leAt f.payload 0 2 < 4096) ∧
    (∀ n ∈ [2048, 2049], fld (BitVec.ofNat 64 (2 ^ 13 + n)) 0 12 = n ∧ (n + 4096 - upPort.rxNext) % 4096 = n ∧ fld (BitVec.ofNat 64 (2 ^ 13 + n)) 13 2 = 1) ∧
    (∀ c ∈ [true, false], ({ upPort with coalesced := c }).coalesced = c ∧ upPort.owed < 63) ∧
    512 ≤ ({ upPort with bufReq := List.replicate 512 [] }.buf false).length ∧
    (let b := linked [] { upPort with coalesced := true, bufReq := List.replicate 511 (bytesOf 2 5), txq := [⟨false, false, false, [0]⟩] } OPort.init [];
      ∃ d r, (lpGet b 31).bufReq = d :: r ∧ r.length < 511 ∧ (lpGet b 31).st = 2) := by
  refine ⟨by decide +kernel, by decide +kernel, by decide +kernel, by decide +kernel, _, _, rfl, by decide +kernel, rfl⟩

/-- A `HELLO` of no payload, with the ECRC of R368. -/
def helloBytes : List Byte := bytesOf 12 (2 ^ 12) ++ bytesOf 4 (crc32c (bytesOf 12 (2 ^ 12))).toNat

theorem witness_GuicaLink_packet :
    cutPackets 241 (upPort.partReq ++ pad240 helloBytes) = ([⟨helloBytes⟩], []) ∧ (RawPkt.mk helloBytes).type = 1 ∧ (RawPkt.mk helloBytes).ok = true ∧ carries 1 1 = true := by
  decide +kernel

theorem witness_GuicaLink_control :
    (let f := flitOf (BitVec.ofNat 64 (2 * 2 ^ 13)) [] [(255, .sleep (some 65535))] [];
      fld f.header 13 2 = 2 ∧ bit f.header 15 = false ∧ f.echoes = [] ∧ f.ctl = [(255, .sleep (some 65535))] ∧ (255 : Byte).toNat ∉ upPort.ctlSeen) ∧
    upPort.txSleep = 0 ∧ upPort.echoes = [] ∧ upPort.txMap ≠ [] ∧ { upPort with txSleep := 1 }.txSleep ≠ 0 ∧
    (laneGet (linked [] upPort OPort.init [(false, 0, lane 1)]) 31 false 0).st = 1 ∧
    (let x : LPort := { upPort with sleepSeq := some 7, ctl := [(7, .sleep none, 0)] };
      x.sleepSeq = some (7 : Byte).toNat ∧ x.replay = [] ∧ x.echoes = [] ∧ x.owedReq = 0 ∧ x.owedRsp = 0 ∧ x.owed = 0 ∧ x.dup = false ∧ x.txSleep = 0 ∧
      x.ctl.filter (fun e => decide (e.1 ≠ (7 : Byte).toNat)) = []) ∧ bit (regGet (linked [] upPort OPort.init []) (linkBase 31)) 3 = true ∧
    (flitOf (BitVec.ofNat 64 (2 * 2 ^ 13)) [] [] [7]).echoes = [7] := by
  decide +kernel

theorem witness_GuicaLink_timers :
    (∀ n ∈ [6, 7], let x : LPort := { upPort with expiries := n, replay := [(4095, true, [])] }
      x.st = 2 ∧ x.replay ≠ [] ∧ x.expiries = n) ∧
    (let x : LPort := { upPort with coalesced := true, owed := 1, owedReq := 1, owedRsp := 1 };
      x.st = 2 ∧ x.coalesced = true ∧ 0 < x.owed ∧ x.rxAny = true ∧ 0 < x.owedReq ∧ 0 < x.owedRsp) ∧
    (∀ n ∈ [98, 99], let x : LPort := { upPort with ctl := [(255, .wake, n)] }
      x.ctl.find? (fun e => e.1 = (255 : Byte).toNat) = some ((255 : Byte).toNat, .wake, n) ∧ x.bounds = [] ∧ x.st ≠ 0 ∧ x.txSleep = 0) ∧
    (∀ n ∈ [15, 16], let x : LPort := { upPort with ctl := [(255, .boundary true 0 18 n 0, 0)], bounds := [⟨true, 0, 18, n, some 255, none⟩] }
      x.ctl.find? (fun e => e.1 = (255 : Byte).toNat) = some ((255 : Byte).toNat, .boundary true 0 18 n 0, 0) ∧
      x.bounds = [⟨true, 0, 18, n, some (255 : Byte).toNat, none⟩] ∧ (n < x.rxFlits + 16 ↔ n = 15)) ∧
    { upPort with txSleep := 1, coalesced := true, owed := 1 }.txSleep ≠ 0 := by
  decide +kernel

theorem witness_GuicaLink_ports :
    (let b := linked [] { LPort.init with st := 1 } { OPort.init with phase := 2 } [];
      (lpGet b 31).st = 1 ∧ (opGet b 31).phase = 2 ∧ portRouted b 31 = false) ∧
    (let b := linked [] upPort OPort.init [];
      (lpGet b 31).st = 2 ∧ (lpGet b 31).rateRule = false ∧ (lpGet b 31).rxSleep = 0 ∧ (lpGet b 30).st = 0 ∧ actServed b = true ∧
      ((inService b 31 true).filter (fun k => (laneGet b 31 true k).locked)).length < 8) ∧
    (let b := linked [] upPort OPort.init ((List.range 8).map (fun k => (true, k, { lane 1 with locked := true })));
      ((inService b 31 true).filter (fun k => (laneGet b 31 true k).locked)).length = 8) ∧
    bit (0x4C000001 : Word) 0 = true ∧ fld (0x4C000001 : Word) 24 8 = 0x4C ∧ fld (0x4D000001 : Word) 24 8 ≠ 0x4C ∧
    ((100000 : Nat) < 2 * 100000) ∧ ¬((100000 : Nat) < 1 * 100000) ∧ { upPort with rateRule := true }.rateRule = true ∧
    (∀ n ∈ [64, 65], ((List.replicate n 1000999).filter (fun t => decide (1000 ≤ t) && decide (t < 1000 + 1000000))).length = n) ∧
    ((List.replicate 65 1001000).filter (fun t => decide (1000 ≤ t) && decide (t < 1000 + 1000000))).length = 0 := by
  decide +kernel

theorem witness_GuicaLink_sleep :
    (sleepReady (linked [] upPort OPort.init []) 31 = true ∧ sleepReady (linked [] LPort.init OPort.init []) 31 = false) ∧
    (let b := linked [] { upPort with txSleep := 1, rxSleep := 2, owedReq := 1 } OPort.init [];
      (lpGet b 31).txSleep = 1 ∧ bit (regGet b (linkBase 31)) 4 = true ∧ b.fab.resv = [] ∧ pairPort b ≠ some 31 ∧ (lpGet b 31).rxSleep = 2 ∧
      0 < (lpGet b 31).owedReq) ∧
    (∀ t ∈ [999, 1000], let b := { linked [] upPort OPort.init [] with time := t }
      sleepReady b 31 = true ∧ ((lpGet b 31).busyAt + 100 * regFld b (linkBase 31) 8 8 ≤ b.time ↔ t = 1000)) ∧
    (∀ t ∈ [999999, 1000000], let b := { linked [] { upPort with txSleep := 1 } OPort.init [] with time := t }
      (lpGet b 31).txSleep = 1 ∧ (lpGet b 31).rxSleep ≠ 1 ∧
      ((lpGet b 31).txSince + 1000 * regFld b (linkBase 31) 16 16 ≤ b.time ↔ t = 1000000)) ∧
    (∀ t ∈ [65534999, 65535000], let b := { linked [] { upPort with rxSleep := 1, farDeep := some 65535 } OPort.init [] with time := t }
      (lpGet b 31).txSleep ≠ 1 ∧ (lpGet b 31).rxSleep = 1 ∧ (lpGet b 31).farDeep = some 65535 ∧ ((lpGet b 31).rxSince + 1000 * 65535 ≤ b.time ↔ t = 65535000)) ∧
    (let b := linked [] upPort OPort.init [(true, 17, { lane 1 with fs := 300, fom := 199 }), (true, 3, { lane 2 with fs := 300, fom := 200 })];
      (laneGet b 31 true 17).fom < (laneGet b 31 true 17).fs - 100 ∧ (laneGet b 31 true 3).fs - 100 ≤ (laneGet b 31 true 3).fom ∧
      (lpGet b 31).rxWoke ≤ b.time ∧ (lpGet b 31).rxSleep = 0 ∧ (laneGet b 31 true 17).st = 1 ∧ freeSpare b 31 true = some 3 ∧ portRouted b 31 = false ∧ (opGet b 31).rx = none ∧
      (opGet b 31).wait = []) ∧
    freeSpare (linked [] upPort OPort.init []) 31 true = none ∧ parityUi 0x8000 ≠ false ∧ parityUi 0x8001 = false := by
  decide +kernel

/-! ### The fabric -/

/-- The module with port 31 up towards a neighbour, and its fabric layer as given. -/
def fabricked (rs : Tbl Word) (f : FabS) : Block :=
  { linked rs upPort OPort.init [] with fab := { f with ports := [(31, { FPort.init with st := 2 })] } }

theorem witness_FabricAndTransport_discovery :
    (let b := fabricked [] FabS.init;
      (lpGet b 31).st = 2 ∧ portRouted b 31 = false ∧ bit (regGet b 0x300000) 0 = false ∧ (lpGet b 30).st ≠ 2 ∧ (fpGet b 31).st = 2 ∧ (fpGet b 30).st = 0 ∧ carries (fpGet b 30).st 2 = false ∧ pktHops b 31 2 < 15 ∧
      serialNo b = 1 ∧ b.fab.master = 0 ∧ storedNode b = none ∧ b.fab.node = none ∧ b.fab.state ≠ 4 ∧ actServed b = true ∧ b.host.evtOn = false) ∧
    (let b := fabricked [(0x300000, 1)] FabS.init;
      actsMaster b = true ∧ bit (3 : Word) 0 = true ∧ bit (3 : Word) 1 = true ∧ bit (2 : Word) 0 = false) ∧
    (let b := fabricked [] { FabS.init with parent := some 31, paths := [(9, 31)], inact := { Tables.empty with epoch := 65535 }, node := some 5 };
      b.fab.parent = some 31 ∧ b.fab.paths.find? (fun e => e.1 = 9) = some (9, 31) ∧ storedNode b = some 5 ∧ b.fab.act.epoch ≠ 65535 ∧
      b.fab.inact.epoch = 65535 ∧ b.fab.node ≠ none) ∧
    storedNode (fabricked [] { FabS.init with node := some 0xFFF }) = some 0xFFF ∧
    (∀ n ∈ [14, 15], ∀ ty ∈ [2, 4, 5, 6, 9], pktHops (fabricked [] { FabS.init with rxq := [(31, ⟨bytesOf 12 (2 ^ 12 * ty + 2 ^ 28 * n)⟩)] }) 31 ty = n) ∧
    (let b := fabricked [] { FabS.init with act := { Tables.empty with epoch := 65535 }, state := 2 };
      b.fab.act.epoch = 65535 ∧ 2 ≤ b.fab.state) := by
  decide +kernel

/-- The epochs after and before the one joined. -/
theorem witness_FabricAndTransport_epochs :
    (1 ≤ ((32767 : BitVec 16).toNat + 65536 - 0) % 65536 ∧ ((32767 : BitVec 16).toNat + 65536 - 0) % 65536 < 32768) ∧
    ¬((32768 : BitVec 16).toNat + 65536 - 0) % 65536 < 32768 := by
  decide

/-- A report of a module without an ID. -/
def reportOf (n : Dword) : ReportPkt := ⟨n, none, 14, false, 1, [], [(0, 2)]⟩

theorem witness_FabricAndTransport_master :
    (let b := fabricked [(0x300000, 1)] { FabS.init with state := 1, epoch := 65535, fresh := true, reports := [reportOf 1] };
      actsMaster b = true ∧ b.fab.reports ≠ [] ∧ b.fab.state = 1 ∧ b.fab.fresh = true ∧ (reportOf 1).hops < 15 ∧ b.fab.epoch < 65536 ∧ assignIds b = [(1, some 0)] ∧ serialNo b = 1 ∧
      b.host.evtOn = false) ∧
    (let b := fabricked [(0x300000, 1)] { FabS.init with state := 1, epoch := 1, fresh := true, reports := [reportOf 1, reportOf 9], paths := [(9, 31)] };
      actsMaster b = true ∧ (9, some 1) ∈ assignIds b ∧ serialNo b ≠ 9 ∧ b.fab.paths.find? (fun e => e.1 = 9) = some (9, 31) ∧ (fpGet b 31).st = 2) := by
  decide +kernel

/-- Node 5, whose table sends what is for node 6 or 7 to port 31, with a split part whose peer is node 7. -/
def routed (f : FabS) : Block :=
  { fabricked [] { f with node := some 5, act := { Tables.empty with dest := [(6, 0x3F), (7, 0x3F)], turn := [(2, 0x80000000), (66, 0x80000000)] } } with
    pads := [(0, { padOn 1 1 with joined := true, peer := 7, peerPad := 63, env := { (padOn 1 1).env with role := 8 } })] }

/-- A packet from node 7 on flow 8191. -/
def packetFor (dst : BitVec 12) (hops : BitVec 4) (m : TMsg) : FabPkt := ⟨dst, 7, hops, false, 8191, 7, 9, true, m⟩

theorem witness_FabricAndTransport_packets :
    (let b := routed FabS.init;
      b.fab.node = some (packetFor 5 0 .done).dst.toNat ∧ b.fab.node ≠ some (packetFor 6 15 .done).dst.toNat ∧
      nextHop b false 2 7 6 8191 7 = some 31 ∧ nextHop b true 2 7 6 8191 7 = some 31 ∧ (fpGet b 31).st = 2 ∧ nextHop b false 2 7 8 8191 7 = none ∧
      localPart b 7 63 = some 0 ∧ nextHop b true 32 5 7 8191 0 = some 31 ∧ tget none b.fab.resp (respKey 7 8191) = none ∧
      b.fab.resp.length < 8192) ∧
    (let b := routed { FabS.init with resp := [(respKey 7 8191, some ⟨9, [(9, .done)]⟩)], flows := [(8191, some ⟨7, 0, 10, [⟨9, .done, 0, false, 0, 0⟩], []⟩)] };
      tget none b.fab.resp (respKey 7 8191) = some ⟨9, [(9, .done)]⟩ ∧ flowGet b 8191 = some ⟨7, 0, 10, [⟨9, .done, 0, false, 0, 0⟩], []⟩ ∧
      workingSlots b 0 false = [] ∧ workingSlots b 0 true = [] ∧ (padGet b 0).st = .ready ∧ b.host.evtOn = false ∧ flowGet b 0 = none ∧ b.time < 20000) ∧
    (∀ t ∈ [20000, 9999999, 10000000], let b := { routed { FabS.init with
        flows := [(8191, some ⟨7, 0, 10, [⟨9, .done, 0, false, 0, 0⟩], []⟩)] } with time := t };
      b.time = t ∧ flowGet b 8191 = some ⟨7, 0, 10, [⟨9, .done, 0, false, 0, 0⟩], []⟩ ∧ workingSlots b 0 true = [] ∧ (padGet b 0).st = .ready ∧
      b.host.evtOn = false ∧ b.fab.node = some 5 ∧ nextHop b false 32 5 7 8191 1 = some 31) := by
  decide +kernel

/-- A responder table of `n` contexts of other flows. -/
def contexts (n : Nat) : Tbl (Option Resp) := (List.range n).map (fun i => (i, some ⟨0, []⟩))

theorem contexts_free (l : List Nat) (k : Nat) (h : k ∉ l) : tget none (l.map (fun i => (i, some (Resp.mk 0 [])))) k = none := by
  induction l with
  | nil => rfl
  | cons x l ih =>
    rw [List.map_cons]
    unfold tget
    have hx : k ≠ x := fun e => h (List.mem_cons.2 (Or.inl e))
    rw [if_neg hx, ih (fun e => h (List.mem_cons_of_mem x e))]

/-- A full responder table without a context of the flow. -/
theorem witness_FabricAndTransport_full : ∃ n, 8192 ≤ n ∧ (contexts n).length = n ∧ tget none (contexts n) (respKey 7 8191) = none :=
  ⟨8192, Nat.le_refl _, by rw [contexts, List.length_map, List.length_range],
    contexts_free _ _ (fun h => absurd (List.mem_range.1 h) (by decide))⟩

/-- A reservation of the last rate that fits beside another, and of the first that does not; a release; an answer. -/
theorem witness_FabricAndTransport_reservations :
    (let b := routed { FabS.init with resv := [⟨2, 31, 3, 7, 6, 1000⟩, ⟨2, 31, 8191, 7, 6, 100⟩] };
      nextHop b false 2 7 6 8191 0 = some 31 ∧ (lpGet b 31).txSleep ≠ 2 ∧ rateOn b 31 8191 7 = 100 ∧ reservable b 31 = true ∧ 12 ≤ (lpGet b 31).width ∧
      resvLoad b 31 - rateOn b 31 8191 7 + 500 ≤ 1500 ∧ 1500 < resvLoad b 31 - rateOn b 31 8191 7 + 501 ∧
      canHold b 31 8191 7 500 = true ∧ canHold b 31 8191 7 501 = false ∧
      b.fab.resv.find? (fun e => e.isOf 8191 7) = some ⟨2, 31, 8191, 7, 6, 100⟩ ∧
      nextHop b false 2 7 8 8191 0 = none ∧ b.fab.node = some 5) ∧
    (routed { FabS.init with asking := [⟨31, 8191, 7, 0⟩] }).fab.asking = [⟨31, 8191, 7, 0⟩] ∧ (fpGet (routed FabS.init) 31).st = 2 := by
  decide +kernel

/-- A joining part of a split whose flow to its peer has a route. -/
theorem witness_FabricAndTransport_joining :
    (let b := { routed { FabS.init with flows := [(3, some ⟨7, 0, 0, [], []⟩)] } with
        pads := [(0, { padOn 1 1 with st := .joining, flows := [3], env := { (padOn 1 1).env with role := 8 } })] };
      (padGet b 0).st = .joining ∧ (padGet b 0).answered = false ∧ (padGet b 0).flows = 3 :: [] ∧ flowGet b 3 = some ⟨7, 0, 0, [], []⟩ ∧
      b.fab.node = some 5 ∧ nextHop b false 32 5 7 3 0 = some 31) := by
  decide +kernel

/-! ### The redundant pair -/

/-- The module with pairing enabled on port 31, whose link to the partner is up, and its pair as given. -/
def paired (x : PairS) : Block :=
  { linked [(0x310000, 0x1F03)] upPort OPort.init [] with pair := x, fab := { FabS.init with ports := [(31, { FPort.init with st := 3 })] } }

theorem witness_RedundantPair_beats :
    (∀ x ∈ [{ PairS.init with beating := true, role := 2, armed := true }, { PairS.init with beating := true }],
      pairPort (paired x) = some 31 ∧ (paired x).pair.beating = true ∧ pairOn (paired x) = true ∧ (paired x).flt.fatal = false ∧ (fpGet (paired x) 31).st = 3) ∧
    (let x := { PairS.init with role := 1, linkOk := true, wireOk := true, met := true, partnerRole := 2, partnerArmed := true };
      x.role ≠ 0 ∧ x.linkOk = true ∧ x.partnerRole = 2 ∧ x.fast = false ∧ x.met = true ∧ x.wireOk = true ∧ x.unprotected = false ∧ x.held = [] ∧
      x.partnerArmed = true) ∧
    (∀ t ∈ [99999, 100000], let b := { paired { PairS.init with met := true, wireOk := true, linkOk := true } with time := t }
      tHb b = 100000 ∧ (b.pair.wireBeat + tHb b ≤ b.time ↔ t = 100000) ∧ (b.pair.linkBeat + tHb b ≤ b.time ↔ t = 100000)) ∧
    (let x := PairS.init;
      x.role = 0 ∧ x.request = false ∧ x.broken = false ∧ x.reads = false ∧ bit (regGet (paired x) 0x310000) 1 = true ∧ x.partnerArmed = false ∧
      x.held = [] ∧ (paired x).sess.slots = [] ∧ x.met = false) ∧
    (∀ m ∈ [true, false], let x := { PairS.init with role := 2, mismatch := m, met := true, wireOk := true, linkOk := true, armed := true }
      x.role = 2 ∧ x.fast = false ∧ x.reads = false ∧ x.broken = false ∧ x.mismatch = m ∧ x.armed = true) := by
  decide +kernel

theorem witness_RedundantPair_halter :
    (∀ e ∈ [(1, true), (0, true), (0, false), (3, false)], let b := paired { PairS.init with role := e.1, request := e.2, met := true }
      pairOn b = true ∧ b.flt.fatal = false ∧ b.pair.broken = false ∧ loadedPads b = [] ∧ b.host.evtOn = false ∧ b.pair.held = [] ∧ b.sess.slots = [] ∧
      b.pair.role = e.1 ∧ b.pair.request = e.2 ∧ b.pair.met = true ∧ b.pair.railP ≠ b.pair.railN) ∧
    (∀ r ∈ [0, 1, 2, 3], let b := paired { PairS.init with role := r, railP := true }
      pairOn b = true ∧ b.pair.broken = false ∧ b.pair.railP = b.pair.railN ∧ b.host.evtOn = false ∧ b.pair.held = []) ∧
    (let b := paired { PairS.init with role := 1, broken := true };
      b.pair.broken = true ∧ b.pair.railP ≠ b.pair.railN ∧ b.pair.role = 1 ∧ b.pair.reads = false) := by
  decide +kernel

/-- A batch of one item, and its commit record. -/
def batchItems : List MirrorItem := [⟨2, 16383, 7, [1, 2, 3]⟩]

/-- Its commit record, with a given epoch. -/
def batchCommit (e : Dword) (ending : Bool) : CommitRec :=
  { mepoch := e, actTime := 0, items := 1, bytes := 19, resyncEnd := ending, crc := crc32c (batchItems.flatMap itemBytes) }

theorem witness_RedundantPair_batches :
    (∀ e ∈ [(1, true), (2, false)], let b := paired { PairS.init with role := 2, fresh := false }
      pairPort b = some 31 ∧ b.flt.fatal = false ∧ b.pair.role = 2 ∧ b.pair.mismatch = false ∧ b.pair.fresh = false ∧ b.pair.armed = false ∧
      batchOk b batchItems (batchCommit (BitVec.ofNat 64 e.1) false) = e.2 ∧ (batchCommit (BitVec.ofNat 64 e.1) false).resyncEnd = false ∧ ∀ m ∈ batchItems, m.kind ≠ 5) ∧
    (let b := paired { PairS.init with role := 2 };
      batchOk b batchItems (batchCommit 9 true) = true ∧ (batchCommit 9 true).resyncEnd = true ∧ bit (regGet b 0x310000) 2 = b.pair.partnerFast ∧
      b.pair.items = []) := by
  decide +kernel

/-- The first and last epochs that an acknowledgement may name, and those beside them. -/
theorem witness_RedundantPair_acks :
    (let x := { PairS.init with role := 1, acked := 4, sent := 6, wireOk := true, partnerArmed := true, resync := true, resyncEnd := 6 };
      x.role = 1 ∧ x.acked < (5 : Dword).toNat ∧ (6 : Dword).toNat ≤ x.sent ∧ (4 : Dword).toNat ≤ x.acked ∧ x.sent < (7 : Dword).toNat ∧ x.held = [] ∧
      x.resync = true ∧ x.resyncEnd ≤ (6 : Dword).toNat ∧ x.acked < x.sent ∧ x.wireOk = true ∧ x.partnerArmed = true ∧ x.unprotected = false) ∧
    (actServed (paired { PairS.init with role := 1 }) = true ∧ bit (0x50000001 : Word) 0 = true ∧ fld (0x50000001 : Word) 24 8 = 0x50 ∧
      fld (0x51000001 : Word) 24 8 ≠ 0x50) ∧
    { paired PairS.init with sess := { slots := [(16383, Slot.free)], pace := [], captured := [] } }.sess.slots = [(16383, Slot.free)] := by
  decide +kernel

/-- A state item of a slot. -/
def stateItem : MirrorItem := ⟨1, 16383, 0, bytesOf 48 (5 * 2 ^ 128 + 9 * 2 ^ 192)⟩

theorem witness_RedundantPair_takeover :
    (∀ k ∈ [2, 3, 5], let b := paired { PairS.init with role := 3, phase := some k }
      b.flt.fatal = false ∧ b.pair.role = 3 ∧ b.pair.phase = some k ∧ b.pair.cover = [] ∧ b.pair.items = [] ∧ b.host.pairs = [] ∧ b.host.evtOn = false ∧
      b.pair.reads = false ∧ b.pair.broken = false ∧ b.sess.slots = []) ∧
    (let b := paired { PairS.init with role := 3, phase := some 4, items := [stateItem] };
      b.pair.items.filter (fun m => decide (m.kind = 1)) = [stateItem] ∧ b.sess.slots = []) ∧
    { PairS.init with role := 3, phase := some 5, reads := true }.reads = true := by
  decide +kernel

/-! ### The queue and the memories -/

/-- The reset state meets the invariant, with an empty queue, with a core command and with an access to the window at its front. -/
theorem witness_MemoryStaysCanonical :
    (∀ q ∈ [[], [Instr.nop ⟨⟨⟨0, 0⟩, 0⟩, 0⟩ ⟨0, 0, 0, 0, 0⟩], [.cxlMemRead 0], [.cxlMemWrite 0 [5] false]],
      Memory.wf { State.reset with pending := q }.blk = true) ∧
    (encodeCore (Instr.nop ⟨⟨⟨0, 0⟩, 0⟩, 0⟩ ⟨0, 0, 0, 0, 0⟩)).isSome = true ∧
    State.reset.pending = [] := by
  decide +kernel

end Sys2Proof.Tests
end

