-- ==== Sys2Proof/Tests/WitnessRun.lean ====
section
/-! SUPPORT. Witnesses of the statements about staged images, paddocks, steps and gaits. -/

set_option Elab.async false

namespace Sys2Proof.Tests

open Sys2Proof Sys2Proof.Machine

/-! ### A small image -/

/-- Header, section table, core map and barrier masks of an image of one team: a core of one line of code whose thread 0 starts and
arrives at barrier 0.  Offsets are in bytes. -/
def smallFront : List Byte :=
  bytesOf 2560 ((((([(0x00, 0x4D495A48), (0x04, 1), (0x08, 256), (0x0C, 5), (0x10, 35328), (0x40, 1), (0x41, 1), (0x44, 64), (0x4A, 1), (0x70, 1),
      (0x74, 1), (0x84, 1), (0x88, 1)] : List (Nat × Nat)) ++
    [(0x100, 1), (0x108, 448), (0x110, 2048), (0x120, 5), (0x128, 2496), (0x130, 32), (0x140, 2), (0x148, 2560), (0x160, 3), (0x168, 2560)] ++
    [(0x180, 4), (0x188, 2560), (0x190, 32768), (448, 0x10001), (460, 1), (2496, 1)] ++
    (List.range 64).map (fun i => (448 + 32 * i + 4, 0xFFFFFFFFFFFFFFFF))) : List (Nat × Nat)).map (fun e => e.2 * 2 ^ (8 * e.1))).sum)

/-- The image: its semaphore table, which ends it, is empty. -/
def smallImage : List Byte := smallFront ++ List.replicate 32768 0

theorem smallFront_length : smallFront.length = 2560 := by decide +kernel

theorem smallImage_length : smallImage.length = 35328 := by
  rw [smallImage, List.length_append, smallFront_length, List.length_replicate]

theorem zeros_read (f : List Byte) (m k o n : Nat) (hm : f.length = m) (h : o + n ≤ k) :
    ((f ++ List.replicate k (0 : Byte)).drop (m + o)).take n = List.replicate n 0 := by
  rw [List.drop_append, hm, List.drop_eq_nil_of_le (by omega), List.nil_append, List.drop_replicate, List.take_replicate]
  congr 1
  omega

theorem smallImage_section : sectOf (listRead smallImage) 4 = some ⟨4, 2560, 32768, true⟩ := by decide +kernel

theorem smallImage_semRead (o n : Nat) (h : o + n ≤ 32768) : sectAt (listRead smallImage) 4 o n = List.replicate n 0 := by
  unfold sectAt
  rw [smallImage_section]
  exact zeros_read smallFront 2560 32768 o n smallFront_length h

theorem smallImage_sem (v : Nat) (h : v < 4096) : (sectAt (listRead smallImage) 4).at (8 * v) 8 = 0 := by
  unfold ImgRead.at
  rw [smallImage_semRead (8 * v) 8 (by omega)]
  decide

theorem smallImage_noSem (v : Nat) (h : v < 4096) : semOf (listRead smallImage) v = none := by
  unfold semOf
  rw [smallImage_sem v h]
  rfl

theorem smallImage_sems : semsOf (listRead smallImage) = [] := by
  unfold semsOf
  rw [List.filterMap_eq_nil_iff]
  intro v hv
  rw [smallImage_noSem v (List.mem_range.1 hv)]
  rfl

theorem smallImage_semOk : semOk (listRead smallImage) (envOf (listRead smallImage)) = true := by
  have hc : (envOf (listRead smallImage)).semCount = 0 ∧ (envOf (listRead smallImage)).countersPerTeam = 0 := by decide +kernel
  have ha : (List.range 4096).all (fun v =>
      decide ((sectAt (listRead smallImage) 4).at (8 * v) 8 / 2 ^ 23 % 2 = 0) && decide ((sectAt (listRead smallImage) 4).at (8 * v) 8 / 2 ^ 48 = 0)) = true := by
    rw [List.all_eq_true]
    intro v hv
    rw [smallImage_sem v (List.mem_range.1 hv)]
    rfl
  unfold semOk
  simp only [smallImage_sems, hc.1, hc.2]
  simp only [ha]
  rfl

theorem smallImage_head : headStatus (listRead smallImage) = 0 ∧ dirOk (listRead smallImage) = true ∧
    spanOk (listRead smallImage) (envOf (listRead smallImage)) = true ∧ imgLen (listRead smallImage) = 35328 := by
  decide +kernel

/-- The first `n` records of 32 bytes. -/
def records : Nat → List Byte → List (List Byte)
  | 0, _ => []
  | n + 1, l => l.take 32 :: records n (l.drop 32)

theorem records_get (n : Nat) (l : List Byte) (i : Nat) (h : i < n) : (records n l)[i]? = some ((l.drop (32 * i)).take 32) := by
  induction n generalizing l i with
  | zero => omega
  | succ n ih =>
    cases i with
    | zero => rfl
    | succ i =>
      show (records n (l.drop 32))[i]? = _
      rw [ih (l.drop 32) i (by omega), List.drop_drop]
      congr 3
      omega

theorem smallImage_records : records 64 (smallImage.drop 448) =
    (bytesOf 12 0xFFFFFFFFFFFFFFFF00010001 ++ [1] ++ List.replicate 19 0) ::
      List.replicate 63 (bytesOf 12 0xFFFFFFFFFFFFFFFF00000000 ++ List.replicate 20 0) := by
  decide +kernel

theorem smallImage_coreRead (i j n : Nat) (l : List Byte) (hi : i < 64) (hj : j + n ≤ 32) (h : (records 64 (smallImage.drop 448))[i]? = some l) :
    sectAt (listRead smallImage) 1 (32 * i + j) n = (l.drop j).take n := by
  have h1 : sectOf (listRead smallImage) 1 = some ⟨1, 448, 2048, true⟩ := by decide +kernel
  rw [records_get 64 _ i hi, Option.some.injEq] at h
  unfold sectAt
  rw [h1, ← h, List.drop_drop]
  show (smallImage.drop (448 + (32 * i + j))).take n = _
  rw [List.drop_take, List.take_take, List.drop_drop, Nat.min_eq_left (by omega), Nat.add_assoc]

/-- A core's record from its 32 bytes. -/
theorem smallImage_coreRec (i : Nat) (l : List Byte) (hi : i < 64) (h : (records 64 (smallImage.drop 448))[i]? = some l) :
    coreRec (listRead smallImage) i =
      { c := leNat ((l.drop 0).take 2), w := leNat ((l.drop 2).take 2), code := leNat ((l.drop 4).take 4), ro := leNat ((l.drop 8).take 4),
        start := leNat ((l.drop 12).take 1), pcs := (List.range 4).map (fun t => leNat ((l.drop (16 + 2 * t)).take 2)),
        zero := decide (leNat ((l.drop 13).take 3) = 0) && decide (leNat ((l.drop 24).take 8) = 0) } := by
  have rd := fun j n hj => smallImage_coreRead i j n l hi hj h
  unfold coreRec
  have hp : (List.range 4).map (fun t => (sectAt (listRead smallImage) 1).at (32 * i + 16 + 2 * t) 2) =
      (List.range 4).map (fun t => leNat ((l.drop (16 + 2 * t)).take 2)) := by
    apply List.map_congr_left
    intro t ht
    have := List.mem_range.1 ht
    unfold ImgRead.at
    rw [show 32 * i + 16 + 2 * t = 32 * i + (16 + 2 * t) by omega, rd (16 + 2 * t) 2 (by omega)]
  simp only [hp]
  unfold ImgRead.at
  have h0 := rd 0 2 (by omega)
  rw [Nat.add_zero] at h0
  rw [h0, rd 2 2 (by omega), rd 4 4 (by omega), rd 8 4 (by omega), rd 12 1 (by omega), rd 13 3 (by omega), rd 24 8 (by omega)]

theorem smallImage_cores : (List.range 64).all (coreOk (listRead smallImage) (envOf (listRead smallImage))) = true := by
  rw [List.all_eq_true]
  intro i hi
  have hi := List.mem_range.1 hi
  cases i with
  | zero => decide +kernel
  | succ i =>
    have h := smallImage_coreRec (i + 1) (bytesOf 12 0xFFFFFFFFFFFFFFFF00000000 ++ List.replicate 20 0) hi (by
      rw [smallImage_records, List.getElem?_cons_succ, List.getElem?_replicate_of_lt (by omega)])
    unfold coreOk
    simp only [h]
    decide +kernel

theorem smallImage_masks : maskOk (listRead smallImage) (envOf (listRead smallImage)) = true := by
  decide +kernel

theorem smallImage_ok : imageOk (listRead smallImage) = true := by
  have he : (envOf (listRead smallImage)).width * (envOf (listRead smallImage)).height * 64 = 64 := by decide +kernel
  unfold imageOk
  simp only [smallImage_head.1, smallImage_head.2.1, smallImage_head.2.2.1, he, smallImage_cores, smallImage_semOk, smallImage_masks]
  rfl

/-! ### Staging -/

/-- Its first 4 KiB. -/
def smallHead : List Byte := smallFront ++ List.replicate 1536 0

/-- The staged image in segment 40000, with its references and whether its copy runs. -/
def smallStage (refs : Nat) (copying : Bool) (hash : BitVec 256) (head : List Byte) (reqs : List StageReq) : Stage :=
  { hash := hash, env := envOf (listRead smallHead), len := 35328, wOff := 0, segsI := [40000], segsW := [], refs := refs,
    damaged := false, releasing := false, copying := copying, head := head, reqs := reqs }

/-- The module with pair 0 holding a descriptor, one stage number, and segment 40001 clean. -/
def stagedWith (d : Line) (n : Nat) (g : Option Stage) : Block :=
  let b := holding d
  { b with hbm := { b.hbm with segs := [(40000, .stage n), (40001, .clean)], stages := [(n, g)] } }

/-- A `STAGE` from the host that allows 1 segment. -/
def stageDesc : Line := desc [(0, 0x10), (72, 1), (128, 64), (192, 1)]

theorem smallHead_length : smallHead.length = 4096 := by
  rw [smallHead, List.length_append, smallFront_length, List.length_replicate]

theorem witness_Staging_check :
    (∀ e ∈ [(0, none), (0, some (smallStage 1 false 0 [] [])), (0, some (smallStage 0 true 0 [] [])), (1, some (smallStage 1 false 1 [] []))],
      let b := stagedWith stageDesc e.1 e.2
      AtHead b 0 stageDesc 0x10 ∧ fld stageDesc 64 8 = 0 ∧ isReady b 8 0 = true ∧ allReady b 2 8 = true ∧ fld stageDesc 72 8 ≠ 0) ∧
    imgHash (listRead smallHead) = 0 ∧ headStatus (listRead smallHead) = 0 ∧ cdiv (imgLen (listRead smallHead)) segBytes = 1 ∧
    fld stageDesc 192 32 = 1 ∧ ([some ⟨5 * 2 ^ 21 + 1, true⟩].take (fld stageDesc 192 32)).head?.bind chunkAddr = some (5 * 2 ^ 21) ∧
    ([some ⟨5 * 2 ^ 21, true⟩].take (fld stageDesc 192 32)).head?.bind chunkAddr = none ∧
    (let x : StageReq := ⟨0, 7, smallHead, none, fld stageDesc 192 32, [some ⟨5 * 2 ^ 21 + 1, true⟩]⟩;
      sourceChunks x (imgLen (listRead smallHead)) = some [5 * 2 ^ 21] ∧ sourceChunks { x with list := [] } (imgLen (listRead smallHead)) = none) ∧
    (∀ c ∈ [true, false], sameImage (stagedWith stageDesc 0 (some (smallStage 1 c 0 [] []))) 0 = some 0) ∧
    (let b := stagedWith stageDesc 1 (some (smallStage 1 false 1 [] []));
      sameImage b 0 = none ∧ stageGet b 0 = none ∧ cleanSegs b = [40001]) := by
  unfold AtHead CanComplete
  decide +kernel

/-- A copy of the image that one descriptor awaits. -/
def copyingStage : Stage := smallStage 0 true (hashOf smallImage) smallImage [⟨0, 7, [], none, 1, []⟩]

theorem copyingStage_ready : (copyingStage.copying = true ∧ copyingStage.reqs = [⟨0, 7, [], none, 1, []⟩] ∧ copyingStage.segsI.Nodup ∧
    copyingStage.env.hbmWeight = 0 ∧ 35328 ≤ segBytes * copyingStage.segsI.length) ∧
    CanComplete (holding 0) 0 ∧ (holding 0).hbm.retired = [] := by
  unfold CanComplete
  decide +kernel

theorem one_chunk (l : List Byte) (n : Nat) (h : l.length = n) (h1 : cdiv n segBytes = 1) :
    chunkBytes [some l] n = some l ∧ chunkBytes [none] n = none := by
  unfold chunkBytes
  rw [h1, ← h]
  simp

theorem witness_Staging_done : ∃ b : Block,
    stageGet b 0 = some copyingStage ∧ copyingStage.copying = true ∧ copyingStage.reqs = [⟨0, 7, [], none, 1, []⟩] ∧ CanComplete b 0 ∧
    chunkBytes [some smallImage] copyingStage.len = some smallImage ∧ chunkBytes [none] copyingStage.len = none ∧
    smallImage.length = copyingStage.len ∧ imageOk (listRead smallImage) = true ∧ hashOf smallImage = copyingStage.hash ∧
    copyingStage.env.hbmWeight = 0 ∧
    padTo (0x100 + 32 * sectCount (listRead smallImage)) smallImage = padTo (0x100 + 32 * sectCount (listRead smallImage)) copyingStage.head ∧
    copyingStage.segsI.Nodup ∧ smallImage.length ≤ segBytes * copyingStage.segsI.length ∧ copyingStage.wOff ≤ smallImage.length ∧
    b.hbm.retired = [] := by
  have h := copyingStage_ready
  refine ⟨{ holding 0 with hbm := { (holding 0).hbm with stages := [(0, some copyingStage)] } }, rfl, h.1.1, h.1.2.1, h.2.1, (one_chunk _ _ smallImage_length (by decide)).1, (one_chunk smallImage _ smallImage_length (by decide)).2, smallImage_length, smallImage_ok, rfl, h.1.2.2.2.1, rfl, h.1.2.2.1, ?_, Nat.zero_le _, h.2.2⟩
  rw [smallImage_length]
  exact h.1.2.2.2.2

/-- A `RELEASE` of stage number 0. -/
def releaseDesc : Line := desc [(0, 0x10), (64, 1)]

theorem witness_Staging_release :
    ∀ e ∈ [(0, none), (0, some (smallStage 1 false 0 [] [])), (0, some (smallStage 2 false 0 [] []))], let b := stagedWith releaseDesc e.1 e.2
      AtHead b 0 releaseDesc 0x10 ∧ fld releaseDesc 64 8 = 1 ∧ fld releaseDesc 80 10 = 0 ∧ isReady b 8 0 = true ∧ allReady b 2 8 = true ∧
      stageGet b 0 = e.2 ∧ stageUsed b 0 = false ∧ b.hbm.retired = [] := by
  unfold AtHead CanComplete
  decide +kernel

/-! ### Paddocks -/

/-- A loaded stage of one team with a page of KV, and the module with it, paddock 0 and a descriptor. -/
def loadStage : Stage :=
  { smallStage 1 false 0 [] [] with env := { Env.zero with width := 1, height := 1, cisternBytes := 64, barrierCount := 1, kvReserve := 32768 }, segsI := [], len := 0 }

/-- The module with that stage, paddock 0 as given, and a descriptor. -/
def paddocked (d : Line) (y : Pad) : Block := { stagedWith d 0 (some loadStage) with pads := [(0, y)] }

/-- A load of stage 0 at column 1, row 58. -/
def loadDesc : Line := desc [(0, 0x11), (64, 0), (88, 1), (96, 58), (104, 0)]

/-- The same module without a paddock, its stage of a given height. -/
def emptied (h : Nat) : Block :=
  stagedWith loadDesc 0 (some { loadStage with env := { loadStage.env with height := h } })

theorem witness_PaddockLife_load :
    (∀ h ∈ [1, 2], let b := emptied h
      AtHead b 0 loadDesc 0x11 ∧ isReady b 8 0 = true ∧ b.host.evtOn = false ∧ allReady b 2 8 = true ∧ fld loadDesc 64 10 = 0 ∧
      stageGet b 0 = some { loadStage with env := { loadStage.env with height := h } } ∧ loadStage.copying = false ∧ loadStage.damaged = false ∧
      loadStage.releasing = false ∧ bit loadDesc 80 = false ∧ fld loadDesc 88 8 = 1 ∧ fld loadDesc 96 8 = 58 ∧ loadStage.env.width = 1 ∧
      isReady b 4 1 = true ∧ (padGet b 0).st = .free ∧ loadStage.env.split = false ∧ loadStage.env.splitFlows = 0) := by
  unfold AtHead CanComplete
  decide +kernel

/-- Without a paddock, a test or a failed team, every team is free. -/
theorem freeTeams_of_empty (b : Block) (hp : b.pads = []) (ht : b.pwr.tests = []) (hf : b.flt.failed = []) : freeTeams b false = List.range 4720 := by
  unfold freeTeams
  rw [List.filter_eq_self]
  intro k _
  have h1 : padOf b k = none := by
    unfold padOf
    rw [List.find?_eq_none]
    intro p _
    unfold padGet
    rw [hp]
    exact fun h => by cases h
  unfold teamFree teamIdle teamFailed
  rw [h1, ht, hf]
  rfl

/-- The load finds its place in the last row; two rows do not fit there. -/
theorem witness_PaddockLife_room :
    (∀ h ∈ [1, 2], shortages (emptied h) { loadStage.env with height := h } 0 (freeTeams (emptied h) false) = []) ∧
    rectFree (freeTeams (emptied 1) false) 1 58 1 1 = true ∧ rectFree (freeTeams (emptied 2) false) 1 58 1 2 = false := by
  rw [freeTeams_of_empty (emptied 1) rfl rfl rfl, freeTeams_of_empty (emptied 2) rfl rfl rfl]
  refine ⟨?_, by decide +kernel⟩
  intro h hh
  rw [freeTeams_of_empty (emptied h) rfl rfl rfl]
  revert h
  decide +kernel

theorem witness_PaddockLife_check :
    (∀ st ∈ [PadState.ready, .fenced, .restoring, .free], ∀ e ∈ [(0x12, 0), (0x12, 1), (0x13, 0), (0x13, 3)],
      let d := desc [(0, e.1), (72, e.2)]
      let b := paddocked d { padOn 1 1 with st := st }
      AtHead b 0 d e.1 ∧ fld d 64 6 = 0 ∧ fld d 72 8 = e.2 ∧ (padGet b 0).st = st ∧ (padGet b 0).env.split = false ∧
      (padGet b 0).tampered = false ∧ isReady b 8 0 = true ∧ b.host.evtOn = false) := by
  unfold AtHead CanComplete
  decide +kernel

theorem witness_PaddockLife_loaded : ∃ b : Block,
    b.host.evtOn = false ∧ (padGet b 0).st = .loading ∧ rampsDone b (padGet b 0) (padGet b 0).run = true ∧
    readStage b (padGet b 0).stage = (b, some (imageRead loadStage [])) ∧ (padGet b 0).env.split = false ∧ (padGet b 0).waiters = [(0, 7)] ∧
    (∀ i ∈ (padGet b 0).teams, (pumpGet b i).q = []) ∧
    CanComplete b 0 ∧ (padGet b 0).row + (padGet b 0).env.height = 59 := by
  refine ⟨paddocked 0 { padOn 1 1 with st := .loading, row := 58, waiters := [(0, 7)] }, rfl, rfl, by decide +kernel, rfl, by decide +kernel, rfl, by decide +kernel, ?_, rfl⟩
  unfold CanComplete
  decide +kernel

theorem witness_PaddockLife_unloaded :
    (let b := paddocked 0 { padOn 1 1 with st := .draining, waiters := [(0, 7)] };
      let y := padGet b 0;
      y.st = .draining ∧ boundSlots b 0 = [] ∧ y.step = none ∧ y.waiters = [(0, 7)] ∧ CanComplete b 0 ∧ y.flows = [] ∧ ∀ i ∈ y.teams, (pumpGet b i).q = []) := by
  unfold CanComplete
  decide +kernel

theorem witness_PaddockLife_restore :
    (∀ e ∈ [(PadState.fenced, 0), (.fenced, 1), (.restoring, 1)], let b := paddocked 0 { padOn 1 1 with st := e.1, act := e.2 }
      let y := padGet b 0
      y.st = e.1 ∧ y.quiet = false ∧ y.act = e.2 ∧ y.dead = false ∧ b.flt.fatal = false ∧ b.die.repair = [] ∧ rampsDone b y y.run = true) ∧
    (let b := { paddocked 0 { padOn 1 1 with st := .fenced } with pwr := { (up []).pwr with restore := [0] } };
      let y := padGet b 0;
      b.pwr.restore = [0] ∧ isReady b 0 0 = true ∧ allReady b 2 8 = true ∧ allReady b 3 4 = true ∧ isReady b 4 y.col = true ∧ y.env.width = 1 ∧
      y.st = .fenced ∧ y.dead = false ∧ b.flt.fatal = false ∧ stageGet b y.stage = some loadStage ∧ loadStage.damaged = false) := by
  decide +kernel

/-- A part that joins over flow 3 to node 2, and the message of a peer that matches it, and of one that does not. -/
def joiningPad (rs : Tbl Word) : Block :=
  let b := paddocked 0 { padOn 1 1 with st := .joining, flows := [3], env := { (padOn 1 1).env with role := 8, peerHash := 5 }, hash := 6 }
  { b with fab := { b.fab with flows := [(3, some ⟨2, 0, 0, [], []⟩)] }, regs := rs ++ b.regs }

theorem witness_PaddockLife_joining :
    (padGet (joiningPad []) 0).st = .joining ∧ joins (joiningPad []) 0 ⟨5, 6, 0, 16, 0, 0, 2⟩ = true ∧
    joins (joiningPad []) 0 ⟨5, 6, 0, 0, 0, 0, 2⟩ = false ∧ (padGet (joiningPad []) 0).mismatch = false ∧
    (padGet (joiningPad []) 0).flows = 3 :: [] ∧ flowGet (joiningPad []) 3 = some ⟨2, 0, 0, [], []⟩ ∧
    nextHop (joiningPad []) false 32 0 2 3 0 = none := by
  decide +kernel

end Sys2Proof.Tests
end

