-- ==== Sys2Proof/Tests/WitnessStep.lean ====
section
/-! SUPPORT. Witnesses of the statements about steps, gaits, clocks, temperature, resets, self-tests and HBM. -/

set_option Elab.async false

namespace Sys2Proof.Tests

open Sys2Proof Sys2Proof.Machine

/-- A property of every entry of a table of one entry holds if it does of the entry and of the default. -/
theorem tget_one {α : Type} (P : α → Prop) (d v : α) (k n : Nat) (hv : P v) (hd : P d) : P (tget d [(k, v)] n) := by
  show P (if n = k then v else d)
  split
  · exact hv
  · exact hd

/-! ### Steps -/

/-- A turn of five tokens with one record written; its prompt is prefilled. -/
def liveT : Turn :=
  { acceptT := 0, firstDl := 1000, interval := 100000, running := true, suspended := false, tampered := false, tries := 0, blocks := [], prompt := [],
    done := 0, begun := true, gen := 5, written := 1, lastSeq := some 0, tag := 77, pair := 0, noIrq := false, cdl := 1000000, bound := 1000000,
    replay := false, ended := none }

/-- Slot 2 with that turn, in greedy sampling. -/
def liveSlot : Slot := { Slot.free with st := 2, turns := [liveT], pending := true, lastToken := 4, nextSeq := 1, topK := 256 }

/-- Paddock 0 with 16 logits, whose barrier 0 awaits the scheduler. -/
def stepPad (s : Option Step) : Pad :=
  { padOn 1 1 with env := { (padOn 1 1).env with role := 1, vocab := 16, maxBatch := 4, stepBase := 1, stepPer := 1, prefillNs := 1 }, kv := [40000],
                   bars := [(0, { Bar.zero with need := 2, odd := 1, opened := 3 })], step := s }

/-- The module with them, and pair 0 open. -/
def stepping (s : Option Step) : Block :=
  { onRing open0 with pads := [(0, stepPad s)], sess := { slots := [(2, liveSlot)], pace := [], captured := [] } }

/-- A step of that slot with one set of logits, of which token 3's is the highest. -/
def oneStep (lines : Tbl (Option Line)) : Step :=
  { num := 1, kind := 0, level := 0, parts := [⟨2, 0, true, 0, false, 1, 0⟩], sets := 1, lines := lines, ended := true, going := true }

theorem witness_StepsAndSampler_start :
    (let b := stepping none;
      let x := padGet b 0;
      x.st = .ready ∧ x.step = none ∧ x.flows = [] ∧ stepReady b 0 = true ∧ (x.bar 0).span = false ∧ (x.bar 0).opened = 3) ∧
    ∀ n t l, (slotGet (stepping none) n).turns = t :: l → t.prompt ≠ [] ∨ t.gen ≠ 0 := by
  refine ⟨by decide +kernel, fun n => tget_one (fun z => ∀ t l, Slot.turns z = t :: l → t.prompt ≠ [] ∨ t.gen ≠ 0) Slot.free liveSlot 2 n ?_ ?_⟩
  · intro t l h
    cases h
    exact Or.inr (by decide)
  · intro t l h
    cases h

/-- The first line and the one past the last; a line that has arrived already. -/
theorem witness_StepsAndSampler_lines :
    ∀ e ∈ [(0, ([] : Tbl (Option Line)), true), (1, [], false), (0, [(0, some 0)], false)],
      let b := pumpPut (stepping (some (oneStep e.2.1))) 0 ⟨[⟨2, e.1, 40959, 1, 0, 0, 0, 0⟩], false, 0⟩
      let g := oneStep e.2.1
      (pumpGet b 0).q = ⟨2, e.1, 40959, 1, 0, 0, 0, 0⟩ :: [] ∧ InPad b 0 0 ∧ (padGet b 0).step = some g ∧
      CleanLine b (spanLine 0 40959).1 (spanLine 0 40959).2 ∧ g.sets * setLines (padGet b 0) = 1 ∧
      (if e.2.2 then e.1 < 1 ∧ tget none g.lines e.1 = none else 1 ≤ e.1 ∨ tget none g.lines e.1 ≠ none) := by
  unfold InPad CleanLine
  decide +kernel

theorem witness_StepsAndSampler_commit :
    (∀ l ∈ [([] : Tbl (Option Line)), [(0, some (desc [(96, 0x3F800000)]))]], let b := stepping (some (oneStep l))
      let x := padGet b 0
      x.step = some (oneStep l) ∧ (oneStep l).ended = true ∧ x.st = .ready ∧ b.flt.fatal = false ∧ setsHeld x (oneStep l) = !l.isEmpty) ∧
    (let b := stepping (some (oneStep [(0, some (desc [(96, 0x3F800000)]))]));
      let x := padGet b 0;
      let z := slotGet b 2;
      z.turns = liveT :: [] ∧ liveTurn z = some liveT ∧ x.tamperStep = false ∧ x.next = none ∧ x.run ≤ max x.target x.gait ∧ b.pair.role = 0 ∧
      unsettled b = false ∧ rqRoom b 2 1 = true ∧ struck b 0 = false ∧ liveT.tampered = false ∧ liveT.suspended = false ∧ b.time ≤ liveT.bound ∧
      bit (ringReg b z.ring 0x2000C) 31 = false ∧ liveT.written + 1 < liveT.gen ∧
      plainToken z (setLogits x (oneStep [(0, some (desc [(96, 0x3F800000)]))]) 0) = ⟨[(3, false)], [], false⟩) := by
  decide +kernel

/-! ### Gaits, domains and sluices -/

/-- The module with paddock 0 loaded at walk with a target of the next gait, in a step. -/
def walking : Block := { up [] with pads := [(0, { stepPad (some (oneStep [])) with target := 1 })] }

theorem walking_pads (q : Nat) : (padGet walking q).run ≤ max (padGet walking q).target (padGet walking q).gait ∧ (padGet walking q).next = none :=
  tget_one (fun x => x.run ≤ max x.target x.gait ∧ x.next = none) Pad.init { stepPad (some (oneStep [])) with target := 1 } 0 q
    (by decide) (by decide)

theorem witness_GaitsAndSluices :
    (writeServed walking = true ∧ 6400 * min (fld (0 : Word) 0 16) 27140 < committedSum walking ∧
      committedSum walking ≤ 6400 * min (fld (27140 : Word) 0 16) 27140) ∧
    (clocked walking = true ∧ walking.flt.fatal = false ∧ walking.pwr.causes = [] ∧ walking.pwr.throttle = [] ∧ 0 ≤ headroom walking ∧
      raisable walking = [0] ∧ (padGet walking 0).step ≠ none ∧ (extra walking (padGet walking 0) 1 : Int) ≤ lowHead walking ∧
      (padGet walking 0).st ≠ .free) ∧
    (∀ r ∈ [true, false], let b := { walking with pwr := { walking.pwr with domains := [(15, ⟨0, 1, r, 600⟩)] } }
      clocked b = true ∧ (domGet b 15).ramping = r) ∧ 20 * 569 < 19 * setPoint 0 ∧ 21 * setPoint 0 < 20 * 631 ∧
    (let b := { running (padOn 1 1) Thread.parked CoreS.init [] with time := 2000 };
      bit (regGet b 0x30400) 0 = true ∧ padOf b 0 = some 0 ∧ (thrGet b 0).idleAt + (thrGet b 0).napAfter = 2000 ∧ ∀ k ∈ [63, 64], (coreGet b k).outstanding = 0 ∧ (coreGet b k).napping = false ∧
        ∀ i < 4, ((thrGet b (4 * k + i)).st = .waiting ∨ (thrGet b (4 * k + i)).st = .parked) ∧
          ((thrGet b (4 * k + i)).idleAt + (thrGet b (4 * k + i)).napAfter ≤ b.time)) ∧
    (∀ t ∈ [152, 153], let b := { running (padOn 1 1) Thread.parked CoreS.init [] with time := t }
      padOf b 0 = some 0 ∧ (64 ≤ tickTenths (padGet b 0).run * (b.time - (pumpGet b 0).idleAt) / 50 ↔ t = 153)) ∧
    (pumpGet walking 0).q = [] ∧ (pumpGet (pumpPut walking 0 ⟨[⟨0, 0, 0, 1, 0, 0, 0, 0⟩], false, 0⟩) 0).q ≠ [] := by
  decide +kernel

theorem witness_GaitsAndSluices_raise : (∀ q, (padGet walking q).run ≤ max (padGet walking q).target (padGet walking q).gait ∧ (padGet walking q).next = none) ∧
    ∀ q, (padGet walking q).next = none :=
  ⟨walking_pads, fun q => (walking_pads q).2⟩

/-- The last line of a cistern, without an error and with one flipped bit in a word. -/
theorem witness_GaitsAndSluices_scrub :
    ∀ v ∈ [0, 1, 64], let b := corePut { walking with die := { walking.die with cistErr := [(8 * 639 + 7, v)] } } 0 { CoreS.init with scrub := 639 }
      padOf b (teamKey ⟨0, 0⟩) ≠ none ∧ (coreGet b 0).scrub < 640 ∧ wordErr b 0 (8 * 639 + 7) = v ∧ (v = 0 → CleanLine b 0 639) ∧
      ∀ i < 8, i ≠ 7 → wordErr b 0 (8 * 639 + i) = 0 := by
  unfold CleanLine
  decide +kernel

/-! ### Clocks and readiness -/

/-- The module with a supply in a given state. -/
def supplied (refOk locked held perst : Bool) : Block :=
  { up [] with pwr := { (up []).pwr with refOk := refOk, locked := locked, held := held, perst := perst } }

theorem witness_ClocksAndReadiness :
    (∀ e ∈ [(false, false), (true, true), (true, false)], let b := supplied true false e.1 e.2
      b.pwr.powered = true ∧ b.pwr.refOk = true ∧ b.pwr.locked = false ∧ b.flt.fatal = false ∧ b.pwr.held = e.1 ∧ b.pwr.perst = e.2) ∧
    ((supplied true true true true).pwr.locked = true ∧ (supplied true true true true).pwr.perst = true) ∧
    (let b := supplied true true false false;
      b.pwr.locked = true ∧ b.pwr.perst = false ∧ b.pwr.powered = true ∧ b.pwr.held = false ∧ b.reports = [] ∧ b.flt.inj = none) ∧
    (let b := { up [] with pwr := { (up []).pwr with ready := [] } };
      b.host.evtOn = false ∧ canReady b 0 0 = true ∧ isReady b 0 0 = false ∧ b.host.early = [] ∧ b.host.earlyEvt = false ∧ canReady b 8 0 = false) ∧
    (isReady (up []) 8 0 = true ∧ isReady (up []) 4 79 = false) ∧
    CanEvent { up [(0x20100, 6 * 256)] with host := { HostS.init with evtOn := true } } := by
  unfold CanEvent
  decide +kernel

/-! ### Temperature, supply and resets -/

/-- The module with sensor 511 as given. -/
def sensed (x : Sensor) : Block :=
  { up [] with pwr := { (up []).pwr with sensors := [(511, x)] }, time := 100000000 }

theorem witness_TemperatureAndSupply :
    (∀ t ∈ [(759 : Int), 800, 880, 920], let b := sensed { Sensor.init with temp := t, still := 1, validSince := 1 }
      let x := sensorGet b 511
      clocked b = true ∧ b.pwr.throttle = [] ∧ b.pwr.causes = [] ∧ b.flt.fatal = false ∧ b.mgmt.low = false ∧ b.host.evtOn = false ∧
      x.broken = false ∧ x.still < 4000 ∧ x.valid = true ∧ x.temp = t ∧ x.masked = false) ∧
    (let b := { sensed Sensor.init with pwr := { (sensed Sensor.init).pwr with hot := [7] } };
      clocked b = true ∧ b.flt.fatal = false ∧ 7 ∈ b.pwr.hot ∧ 7 ∉ b.flt.held ∧ engBroken b 7 ≤ 2 ∧
      ∀ m ∈ engSensors 7, (sensorGet b m).valid = false) ∧
    (∀ r ∈ [true, false], let b := sensed { Sensor.init with broken := r }
      actServed b = true ∧ fld (0x540001FF : Word) 24 8 = 0x54 ∧ fld (0x540001FF : Word) 0 10 = 511 ∧ fld (0x54000200 : Word) 0 10 = 512 ∧
      (sensorGet b 511).broken = r ∧ ∀ k ∈ maskGroup 511, (sensorGet b k).masked = false) ∧
    (let b := sensed Sensor.init;
      ¬(min (regFld b 0x40308 0 16) 33000 * ((33000 :: b.pwr.samples).take 100).length < ((33000 :: b.pwr.samples).take 100).sum)) := by
  decide +kernel

/-- The module 20 µs after its input fell below 39 V. -/
def sagging : Block := { up [] with pwr := { (up []).pwr with overSince := [(0, 1)] }, time := 20000 }

theorem witness_TemperatureAndSupply_low :
    (clocked sagging = true ∧ sagging.pwr.causes = [] ∧ sagging.flt.fatal = false ∧ sagging.mgmt.low = false ∧ sagging.host.evtOn = false ∧
      tget 0 sagging.pwr.overSince 0 ≠ 0 ∧ tget 0 sagging.pwr.overSince 0 + 20000 ≤ sagging.time + 1) ∧
    ∀ k, k ≠ 0 → tget 0 sagging.pwr.overSince k = 0 :=
  ⟨by decide +kernel, fun k hk => if_neg hk⟩

theorem witness_Resets :
    (Block.reset.pwr.powered = true ∧ { Block.reset with pwr := { PwrS.init with powered := false } }.pwr.powered = false) ∧
    (writeServed (up []) = true ∧ fld (0x52000003 : Word) 24 8 = 0x52 ∧ bit (0x52000003 : Word) 1 = true ∧ bit (0x52000001 : Word) 1 = false ∧
      bit (0x52000001 : Word) 0 = true ∧ fld (0x53000003 : Word) 24 8 ≠ 0x52 ∧ (up []).pwr.held = false ∧ (up []).flt.windows = [] ∧
      (up []).flt.waits = [] ∧ (up []).flt.fatal = false) ∧
    (supplied true false true true).pwr.locked = false ∧
    (let b := supplied true true true true;
      b.pwr.locked = true ∧ b.pwr.powered = true ∧ b.pwr.held = true ∧ b.pwr.cold = false ∧ b.flt.fatal = false) := by
  decide +kernel

/-! ### Self-tests, the window and the pool -/

/-- A test of two teams of the last row, and one of one segment. -/
def testDesc (hbm : Nat) : Line :=
  if hbm = 1 then desc [(0, 0x21), (64, 1), (128, 1)] else desc [(0, 0x21), (80, 58), (88, 2), (96, 1)]

theorem witness_SelfTests :
    (∀ e ∈ [(0, padOn 1 1), (0, { padOn 1 1 with col := 1, row := 58 }), (1, padOn 1 1)], let b := { holding (testDesc e.1) with pads := [(0, e.2)] }
      AtHead b 0 (testDesc e.1) 0x21 ∧ fld (testDesc e.1) 64 8 = e.1 ∧ allReady b 2 8 = true ∧ isReady b 4 0 = true ∧ isReady b 4 1 = true) ∧
    (fld (testDesc 0) 72 8 = 0 ∧ fld (testDesc 0) 80 8 = 58 ∧ fld (testDesc 0) 88 8 = 2 ∧ fld (testDesc 0) 96 8 = 1) ∧
    (∀ k ∈ rectTeams 0 58 2 1, teamIdle { holding (testDesc 0) with pads := [(0, padOn 1 1)] } k = true) ∧
    (∃ k ∈ rectTeams 0 58 2 1, teamIdle { holding (testDesc 0) with pads := [(0, { padOn 1 1 with col := 1, row := 58 })] } k = false) ∧
    (∀ e ∈ [(false, false), (false, true), (true, true)],
      let x : SelfT := ⟨0, 7, e.1, 0, 58, 2, 1, if e.1 then [40000] else [], e.2, 0⟩
      let b := { holding 0 with pwr := { (holding 0).pwr with tests := [(3, x)] } }
      testGet b 3 = some x ∧ clocked b = true ∧ b.flt.fatal = false ∧ ((64 * 180 * (x.width * x.height) : Nat) : Int) ≤ headroom b ∧
      CanComplete b x.pair ∧ x.from_ ≤ b.time) ∧
    (rectTeams 0 58 2 1).filter (fun j => j = 117) = [117] := by
  unfold AtHead CanComplete
  decide +kernel

/-- The module with an error mark at a unit, and a segment as given. -/
def pooled (u v seg : Nat) (x : Seg) : Block :=
  { up [(0x8020C, 0x000A0001)] with hbm := { HbmS.init with err := [(u, v)], segs := [(seg, x)] } }

/-- The last line of the window, one past it, and its last line with a poisoned unit. -/
theorem witness_WindowAndPool :
    (∀ v ∈ [0, 2], let b := pooled 2147483647 v 40000 .clean
      inWindow b 68719476672 64 = true ∧ winRetired b (68719476672 / segBytes) = false ∧ b.flt.fatal = false ∧
      tget 0 b.hbm.err 2147483646 = 0 ∧ tget 0 b.hbm.err 2147483647 = v ∧ 68719476672 / 32 = 2147483646 ∧ (68719476672 + 63) / 32 = 2147483647 ∧
      inWindow b 68719476673 64 = false) ∧
    (isReady (up []) 1 0 = true ∧ actServed (up []) = true ∧ writeServed (up []) = true ∧ allReady (up []) 2 8 = true ∧ (up []).flt.fatal = false) ∧
    fld (188415 : Word) 0 18 = 188415 ∧ fld (188416 : Word) 0 18 = 188416 ∧
    (∀ x ∈ [Seg.clean, .dirty, .stage 3], let b := pooled 1 0 188415 x
      segGet b 188415 = x ∧ b.hbm.retired = [] ∧ b.hbm.testing = [] ∧ isPool b 188415 = true ∧ actServed b = true) ∧
    (∀ v ∈ [0, 1], let b := { up [] with hbm := { HbmS.init with segs := [(40000, .stage 3)], err := if v = 0 then [] else [(40000 * segBytes / 32, 1)] } }
      patrolled b 40000 = true ∧ tget 0 b.hbm.ceSeen (40000 * segBytes / 32) = 0 ∧
      (b.hbm.err.map (·.1)).filter (fun u => decide (u * 32 / segBytes = 40000)) = (if v = 0 then [] else [40000 * segBytes / 32]) ∧
      tget 0 b.hbm.err (40000 * segBytes / 32) = v) ∧
    (bit (1 : Word) 1 = false ∧ bit (1 : Word) 0 = true ∧ bit (0 : Word) 0 = false ∧ bit (regGet (up []) 0x8020C) 0 = false ∧
      (up []).hbm.spillUsed = [] ∧ bit (32769 : Dword) 0 = true ∧ fld (32769 : Dword) 1 14 = 0) := by
  decide +kernel

/-- An idle session of one page, resident or spilled, in a paddock of one segment. -/
def idling (st : Nat) : Block :=
  { up [(0x8020C, 0x000A0001)] with
    time := 10000000
    pads := [(0, { padOn 1 1 with kv := [40000], env := { (padOn 1 1).env with features := 16, kvReserve := 2097152 }, pages := if st = 1 then [(63, 3)] else [] })]
    sess := { slots := [(2, { Slot.free with st := st })], pace := [], captured := [] }
    hbm := { HbmS.init with pt := [(131072, ptWord (if st = 1 then 63 else 0) (decide (st = 3)))]
                            spillFree := if st = 1 then [(0, 32768)] else [], spillUsed := if st = 1 then [] else [(0, 32768)] } }

theorem witness_WindowAndPool_spill :
    (let b := idling 1;
      twf 0 b.hbm.pt = true ∧ maySpill b 2 = true ∧ 2 ∉ b.hbm.spilling ∧ hostStopped b = false ∧ residentEntries b 2 = [(0, ptWord 63 false)] ∧
      b.hbm.spillFree = (0, 32768) :: [] ∧ fld (ptWord 63 false) 0 22 = 63 ∧ (pageAddr (padGet b 0) 63).isSome = true ∧ b.hbm.err = []) ∧
    (let b := idling 3;
      twf 0 b.hbm.pt = true ∧ actServed b = true ∧ bit (3 : Word) 0 = true ∧ bit (3 : Word) 1 = true ∧ bit (regGet b 0x8020C) 0 = true ∧
      0 < pagesOpen b 0 2 ∧ spilledSlots b = [2] ∧ (slotGet b 2).st = 3 ∧ spilledEntries b 2 = [(0, ptWord 0 true)] ∧ fld (ptWord 0 true) 0 22 = 0 ∧
      b.hbm.spillUsed = [(0, 32768)] ∧ 0 < freeCount (padGet b 0) ∧
      (freePages (padGet b 0)).head? = some 10 ∧ (pageAddr (padGet b 0) 10).isSome = true) := by
  decide +kernel

end Sys2Proof.Tests
end

