-- ==== Sys2Proof/Tests/WitnessTeam.lean ====
section
/-! SUPPORT. Witnesses of the statements about the mesh, the pumps, the sync memories and threads. -/

set_option Elab.async false

namespace Sys2Proof.Tests

open Sys2Proof Sys2Proof.Machine

/-- Scalar registers: s1 names line 624 of core c1 of team (1, 0), s2 a line, s3 the first team past a paddock of two columns, s4 line
624 of core c1 of the own team. -/
def meshRegs : Tbl Word := [(1, 0x400000 + 0x400 + 624), (2, 624), (3, 0x800000), (4, 0x400 + 624)]

/-- A paddock of two teams whose core c0 has 15 requests outstanding, and one of a single team. -/
def meshing (w : Nat) (i : Instr) : Block :=
  running (padOn w 1) { Thread.parked with s := meshRegs } { CoreS.init with outstanding := 15 } [i, i]

theorem witness_RemoteRequestsSent :
    (∀ e ∈ [(Instr.rwr th0 ⟨0, 1, 2, 15, 0⟩, []), (.rwrv th0 ⟨0, 1, 15, 0, 0⟩, [15]), (.rrd th0 ⟨0, 1, 2, 15, 0⟩, []), (.rrdv th0 ⟨15, 1, 0, 0, 0⟩, [15])],
      Issues (meshing 2 e.1) th0 e.1 e.2 ∧ NextOk (meshing 2 e.1) th0 ∧ padOf (meshing 2 e.1) 0 = some 0 ∧ (coreGet (meshing 2 e.1) 0).outstanding < 16 ∧
      (coreGet (meshing 2 e.1) 0).wB ≤ 624 ∧ ((thrGet (meshing 2 e.1) 0).rs 1).toNat / 2 ^ 22 % 128 = 1 ∧ 624 + 16 ≤ 640 ∧
      ∀ i < 16, CleanLine (meshing 2 e.1) 0 (624 + i)) ∧
    Issues (meshing 2 (.rwrv th0 ⟨0, 3, 15, 0, 0⟩)) th0 (.rwrv th0 ⟨0, 3, 15, 0, 0⟩) [15] ∧
    ((thrGet (meshing 2 (.rwrv th0 ⟨0, 3, 15, 0, 0⟩)) 0).rs 3).toNat / 2 ^ 22 % 128 = 2 := by
  unfold Issues NextOk CleanLine
  decide +kernel

theorem witness_TeamBusTransfers :
    ∀ e ∈ [(Instr.rwr th0 ⟨0, 4, 2, 15, 0⟩, []), (.rwrv th0 ⟨0, 4, 15, 0, 0⟩, [15]), (.rrd th0 ⟨0, 4, 2, 15, 0⟩, []), (.rrdv th0 ⟨15, 4, 0, 0, 0⟩, [15])],
      Issues (meshing 1 e.1) th0 e.1 e.2 ∧ NextOk (meshing 1 e.1) th0 ∧ padOf (meshing 1 e.1) 0 = some 0 ∧ (coreGet (meshing 1 e.1) 0).outstanding < 16 ∧
      (coreGet (meshing 1 e.1) 1).wB ≤ 624 ∧ ((thrGet (meshing 1 e.1) 0).rs 4).toNat = 1 * 1024 + 624 ∧ 624 + 16 ≤ 640 ∧
      (∀ i < 16, CleanLine (meshing 1 e.1) 0 (624 + i)) ∧ ∀ i < 16, CleanLine (meshing 1 e.1) 1 (624 + i) := by
  unfold Issues NextOk CleanLine
  decide +kernel

/-- A packet from core c1 of team (1, 0) to team (0, 0): at its sender, at its destination, or at a cistern port. -/
def coming (m : MBody) (at_ : Nat) : MPkt := ⟨.core ⟨⟨1, 0⟩, 1⟩, ⟨0, 0⟩, 0, m, if at_ = 0 then [1, 0] else if at_ = 1 then [0, 1] else [], decide (at_ = 2)⟩

/-- A paddock of two teams whose mesh holds that packet behind one of another source, which has not left it. -/
def arriving (m : MBody) (at_ ctr : Nat) : Block :=
  let b := running (padOn 2 1) Thread.parked CoreS.init []
  { b with die := { b.die with mesh := [packet (.core ⟨⟨1, 0⟩, 2⟩) ⟨0, 0⟩ 0 m, coming m at_], ctr := [(511, ctr)] } }

theorem witness_MeshArrivals :
    (∀ m ∈ [MBody.write 63 639 [5], .readReq 63 624 16 4 (.lines 0), .readResp [5] 4 (.vreg 15), .ack 1, .sem .sadd 511 1 0 4], ∀ k ∈ [0, 1, 2],
      let b := arriving m k 16777214
      InPad b 0 0 ∧ (k = 2 ∧ 2 ≤ m.kind ∨ Moves b (coming m k)) ∧ (coming m k).there = decide (k = 1) ∧ (coming m k).port = decide (k = 2) ∧
      (k = 0 → 0 < (coming m k).flits.sum)) ∧
    (let b := arriving (.ack 1) 1 16777214;
      (coreGet b 63).wB ≤ 639 ∧ (∀ i < 16, CleanLine b 63 (624 + i)) ∧ ctrGet b 0 511 + 1 ≤ 16777215 ∧
      tget 0 b.die.ctrErr 511 = 0 ∧ b.die.waiters = []) := by
  unfold InPad CleanLine Moves
  decide +kernel

/-- A paddock with one HBM segment and two translations: counter 511 of its own team, and of the second team. -/
def pumpPad (w : Nat) : Pad := { padOn w 1 with kv := [40000], sem := [(5, some ⟨511, 0, 0, 0⟩), (6, some ⟨511, 1, 0, 0⟩)] }

/-- Its thread 0 names the last line of the team in s2 and three refused spans in s3 to s5. -/
def pumping (q : List PumpCmd) (i : Instr) : Block :=
  pumpPut (running (pumpPad 1) { Thread.parked with s := [(2, 63 * 1024 + 639), (3, 65536), (4, 640), (5, 63 * 1024 + 639)] } CoreS.init [i, i]) 0 ⟨q, true, 0⟩

theorem witness_PumpQueues :
    (∀ k ∈ [0, 1, 2], let m := BitVec.ofNat 9 k; let i := Instr.pump th0 ⟨0, 0, 2, m, 0x10050000⟩
      let b := pumping (List.replicate 31 ⟨0, 0, 0, 1, 0, 0, 4, 0⟩) i
      Issues b th0 i [] ∧ NextOk b th0 ∧ padOf b 0 = some 0 ∧ 640 * 63 + 639 + 1 ≤ 40960 ∧ spanProtected b 0 40959 1 = false ∧
      spanUnmapped b (padGet b 0) ⟨m.toNat, 0, 40959, 1, 5, 1, 0, 0⟩ = false ∧ (tget none (padGet b 0).sem 5).isSome = true ∧ (pumpGet b 0).q.length < 32) ∧
    (∀ e ∈ [(3, 0), (4, 0), (5, 1)], let i := Instr.pump th0 ⟨0, 0, BitVec.ofNat 5 e.1, 0, BitVec.ofNat 32 e.2⟩
      Issues (pumping [] i) th0 i [] ∧ padOf (pumping [] i) 0 = some 0) ∧ 65536 ≤ (65536 : Word).toNat ∧ 640 ≤ (640 : Word).toNat % 1024 ∧
    40960 < 640 * 63 + 639 + (1 + 1) := by
  unfold Issues NextOk
  decide +kernel

theorem witness_PumpMovesLines : let b := pumping [⟨0, 0, 40959, 1, 0, 0, 4, 0⟩] (.nop th0 f0)
    InPad b 0 0 ∧ (pumpGet b 0).q = ⟨0, 0, 40959, 1, 0, 0, 4, 0⟩ :: [] ∧ 40959 + 1 ≤ 40960 ∧ 64 * (0 + 1) ≤ (padSegs b (padGet b 0)).length * segBytes ∧
    ∀ i < 64, tget 0 b.hbm.err ((40000 * segBytes + i) / 32) = 0 := by
  unfold InPad
  decide +kernel

/-- A team of a pumping paddock with a value in counter 511 and waiters. -/
def counting (w v : Nat) (l : List Waiter) (i : Instr) : Block :=
  let b := running (pumpPad w) { Thread.parked with s := [(1, 3)] } CoreS.init [i, i]
  { b with die := { b.die with ctr := [(511, v)], waiters := l } }

/-- The last amount that fits and the first that does not; both forms. -/
theorem witness_SemaphoreOperations :
    (∀ e ∈ [(Instr.sadd, 16777214), (.sadd, 16777215), (.ssub, 1), (.ssub, 0), (.waitge, 1), (.waitge, 0), (.take, 1), (.take, 0)],
      let i := e.1 th0 ⟨0, 0, 0, 0, 4096 + 5⟩
      let b := counting 1 e.2 [] i
      Issues b th0 i [] ∧ NextOk b th0 ∧ padOf b 0 = some 0 ∧ tget none (padGet b 0).sem 5 = some ⟨511, 0, 0, 0⟩ ∧ ctrGet b 0 511 = e.2 ∧
      tget 0 b.die.ctrErr 511 = 0) ∧
    (let i := Instr.take th0 ⟨0, 0, 1, 1, 5⟩;
      Issues (counting 1 3 [] i) th0 i [] ∧ (thrGet (counting 1 3 [] i) 0).rs 1 = 3) := by
  unfold Issues NextOk
  decide +kernel

theorem witness_SemaphorePackets : ∀ e ∈ [Instr.sadd, .ssub, .waitge, .take],
    (let i := e th0 ⟨0, 0, 0, 0, 4096 + 6⟩;
      Issues (counting 2 0 [] i) th0 i [] ∧ NextOk (counting 2 0 [] i) th0 ∧ padOf (counting 2 0 [] i) 0 = some 0 ∧
      tget none (padGet (counting 2 0 [] i) 0).sem 6 = some ⟨511, 1, 0, 0⟩) ∧
    (let i := e th0 ⟨0, 0, 0, 0, 4095⟩;
      Issues (counting 2 0 [] i) th0 i [] ∧ tget none (padGet (counting 2 0 [] i) 0).sem 4095 = none) := by
  unfold Issues NextOk
  decide +kernel

/-- An add meets a `TAKE` that it satisfies, one that it does not, a later `TAKE` and a `WAITGE`. -/
theorem witness_ServiceInArrivalOrder :
    let b := counting 1 0 [⟨0, 511, 2, true, 4, false, 5⟩, ⟨0, 511, 9, true, 8, false, 5⟩, ⟨0, 511, 0, true, 12, false, 5⟩, ⟨0, 511, 1, false, 16, false, 5⟩] (.nop th0 f0)
    let m : MPkt := ⟨.core ⟨⟨0, 0⟩, 1⟩, ⟨0, 0⟩, 0, .sem .sadd 511 3 5 4, [1], false⟩
    let c := { b with die := { b.die with mesh := [m] } }
    InPad c 0 0 ∧ Moves c m ∧ m.there = true ∧ tget 0 c.die.ctrErr 511 = 0 ∧ ctrGet c 0 511 + 3 ≤ 16777215 := by
  unfold InPad Moves
  decide +kernel

theorem witness_FenceWaits :
    (∀ k ∈ [1, 2, 3], let m := BitVec.ofNat 9 k; let i := Instr.fence th0 ⟨0, 0, 0, m, 0⟩
      Issues (at0 i).blk th0 i [] ∧ NextOk (at0 i).blk th0 ∧ (coreGet (at0 i).blk 0).outstanding = 0 ∧ (pumpGet (at0 i).blk 0).q = []) ∧
    (let i := Instr.fence th0 ⟨0, 0, 0, 1, 0⟩;
      Issues (meshing 1 i) th0 i [] ∧ (coreGet (meshing 1 i) 0).outstanding ≠ 0) ∧
    (let i := Instr.fence th0 ⟨0, 0, 0, 2, 0⟩;
      Issues (pumping [⟨0, 0, 0, 1, 0, 0, 0, 0⟩] i) th0 i [] ∧ ∃ c ∈ (pumpGet (pumping [⟨0, 0, 0, 1, 0, 0, 0, 0⟩] i) 0).q, c.thr = 0) := by
  unfold Issues NextOk
  decide +kernel

/-- A paddock with one barrier beside barrier 0 whose mask holds thread 0. -/
def barring (need even : Nat) (i : Instr) : Block :=
  running { padOn 1 1 with env := { Env.zero with width := 1, height := 1, barrierCount := 2 }, bars := [(1, ⟨need, 0, even, 0, false, false, false⟩)],
                           masks := [(4720, 1)] } Thread.parked CoreS.init [i, i]

/-- An arrival before the last of its round, and the last. -/
theorem witness_ArriveCounts : ∀ k ∈ [0, 1], let m := BitVec.ofNat 9 k; ∀ need ∈ [3, 2], let i := Instr.arrive th0 ⟨0, 0, 0, m, 1⟩
    let b := barring need 1 i
    Issues b th0 i [] ∧ NextOk b th0 ∧ InPad b 0 0 ∧ (1 : Nat) < (padGet b 0).env.barrierCount ∧ (padGet b 0).inMask 1 0 = true ∧
    ((padGet b 0).bar 1).span = false ∧ (thrGet b 0).wait = none ∧ tget 0 b.die.nodeErr 0 = 0 ∧ tget 0 (padGet b 0).rounds (roundKey (padGet b 0) 1 0) = ((padGet b 0).bar 1).opened ∧
    (((padGet b 0).bar 1).even + 1 ≠ need ↔ need = 3) := by
  unfold Issues NextOk InPad
  decide +kernel

/-- A thread that waits for a counter of another team. -/
def waiting (refused released cancel : Bool) : Block :=
  let b := counting 2 0 [] (.nop th0 f0)
  thrPut b 0 { Thread.parked with st := .waiting, wait := some ⟨.take, false, 6, 59, 511, 1, true, refused, released, cancel, 0, 1024⟩ }

theorem witness_WaitLife : ∀ e ∈ [(true, false, false), (false, false, false), (false, true, true), (false, false, true), (false, true, false)],
    (thrGet (waiting e.1 e.2.1 e.2.2) 0).wait = some ⟨.take, false, 6, 59, 511, 1, true, e.1, e.2.1, e.2.2, 0, 1024⟩ ∧
    (thrGet (waiting e.1 e.2.1 e.2.2) 0).st = .waiting ∧ padOf (waiting e.1 e.2.1 e.2.2) 0 = some 0 ∧ (waiting e.1 e.2.1 e.2.2).die.mesh = [] ∧
    (padGet (waiting e.1 e.2.1 e.2.2) 0).cycles < 0 + 10 * 1024 ∧ 0 + 10 * 1024 ≤ ({ padOn 1 1 with cycles := 10240 }).cycles := by
  decide +kernel

theorem witness_ThreadControl :
    (∀ i ∈ [Instr.nop th0 f0, .halt th0 f0, .tstart th0 ⟨0, 1, 2, 0, 3⟩, .tstart th0 f0], Issues (at0 i).blk th0 i [] ∧ NextOk (at0 i).blk th0) ∧
    (thrGet (at0 (.tstart th0 ⟨0, 1, 2, 0, 3⟩)).blk 3).st = .parked := by
  unfold Issues NextOk
  decide +kernel

theorem witness_SpecialRegisters :
    (∀ n ∈ [0x00, 0x0E, 0x0F, 0xFF], let i := Instr.mfsr th0 ⟨1, 0, 0, 0, BitVec.ofNat 32 n⟩; Issues (at0 i).blk th0 i [] ∧ NextOk (at0 i).blk th0) ∧
    (∀ n ∈ [0x04, 0x05, 0x06, 0x07, 0x0D, 0x0E, 0x00, 0x08, 0xFF], let i := Instr.mtsr th0 ⟨0, 1, 0, 0, BitVec.ofNat 32 n⟩
      Issues (at0 i).blk th0 i [] ∧ NextOk (at0 i).blk th0) ∧ padOf (at0 (.nop th0 f0)).blk 0 = some 0 := by
  unfold Issues NextOk
  decide +kernel

/-- Software traps at both ends; an undefined opcode; a PC at the code boundary; a parked thread. -/
theorem witness_TrapsAndIssue :
    (∀ n ∈ [0x10, 0xFF], let i := Instr.trap th0 ⟨0, 0, 0, 0, BitVec.ofNat 32 n⟩; Issues (at0 i).blk th0 i []) ∧
    opcodeMap 0xB0 th0 f0 = some (.nop th0 f0) ∧
    (let b := running (padOn 1 1) Thread.parked CoreS.init [];
      opDefined (fld (heldWord (cwrite b 0 7 [0xFF]) 0 0) 56 8) = false ∧ InPad b 0 0 ∧ pcOk b 0 0 = true ∧ CleanLine b 0 0 ∧ (coreGet b 0).await = [] ∧
      64 * (coreGet b 0).cB ≤ (64 : Word).toNat ∧ (thrGet (thrPut b 0 Thread.parked) 0).st = .parked) := by
  unfold Issues InPad CleanLine
  decide +kernel

theorem witness_UnusedFieldsTrap :
    (∀ i ∈ [Instr.add th0 ⟨1, 2, 3, 0, 1⟩, .mul th0 ⟨1, 2, 3, 256, 0⟩, .addi th0 ⟨1, 2, 3, 0, 0⟩, .muli th0 ⟨1, 2, 0, 1, 0⟩, .beq th0 ⟨1, 0, 0, 0, 0⟩, .bgeu th0 ⟨0, 0, 0, 1, 0⟩],
      Issues (at0 i).blk th0 i []) ∧
    (∀ e ∈ [(Instr.vadd th0 ⟨16, 0, 0, 8, 0⟩, [16, 0, 0]), (.vsel th0 ⟨0, 0, 31, 0, 0⟩, [0, 0, 31]), (.vxor th0 ⟨0, 0, 0, 0, 1⟩, [0, 0, 0])],
      Issues (at0 e.1).blk th0 e.1 e.2) := by
  unfold Issues
  decide +kernel

end Sys2Proof.Tests
end

section
/-! SUPPORT. Lines of a cistern, byte by byte, and the blocks that hold lines newly written. -/

namespace Sys2Proof.Machine

/-! ### Bytes of a line -/

/-- Byte `j` of the line that 64 bytes spell. -/
theorem lineOf_byte (l : List Byte) (j : Nat) (hl : l.length = 64) (hj : j < 64) :
    (lineOf l).extractLsb' (8 * j) 8 = l.getD j 0 := by
  have hjl : j < l.length := by omega
  have h := fld_lineOf l j 1 hl (by omega)
  rw [List.drop_eq_getElem_cons hjl, List.take_succ_cons, List.take_zero] at h
  apply BitVec.eq_of_toNat_eq
  rw [BitVec.extractLsb'_toNat, Nat.shiftRight_eq_div_pow, List.getD_eq_getElem?_getD, List.getElem?_eq_getElem hjl, Option.getD_some]
  simpa [fld, leNat] using h

/-- Byte `j` of a cistern line is the byte that the cistern holds there. -/
theorem cline_byte (b : Block) (ck l j : Nat) (hj : j < 64) : (cline b ck l).extractLsb' (8 * j) 8 = cbyte b ck (64 * l + j) := by
  unfold cline
  rw [lineOf_byte _ _ (by simp) hj]
  simp [hj]

/-- Byte `j` of the bytes of a line. -/
theorem lineBytes_getD (v : Line) (j : Nat) (hj : j < 64) : (lineBytes v).getD j 0 = v.extractLsb' (8 * j) 8 :=
  bytesOf_get v 64 j hj

/-! ### One line written through the port -/

/-- A whole-line write changes the bytes of its line alone. -/
theorem cbyte_portWrite (b : Block) (ck l : Nat) (v : Line) (ck' i : Nat) (hl : l < 640) (hi : i < 40960) :
    cbyte (portWrite b ck l v) ck' i = if ck' = ck ∧ i / 64 = l then v.extractLsb' (8 * (i % 64)) 8 else cbyte b ck' i := by
  have h : cbyte (portWrite b ck l v) ck' i = cbyte (cwrite b ck (64 * l) (lineBytes v)) ck' i := rfl
  have hline : (64 * l ≤ i ∧ i < 64 * l + 64) ↔ i / 64 = l := by omega
  rw [h, cbyte_cwrite _ _ _ _ _ _ hi (by rw [lineBytes_length]; omega), lineBytes_length]
  simp only [hline]
  split
  · rename_i hk
    rw [show i - 64 * l = i % 64 by omega, lineBytes_getD _ _ (by omega)]
  · rfl

/-- Entries cleared one after the other read 0, the others what they held. -/
theorem tget_foldl_clear (f : Nat → Nat) (ws : List Nat) (m : Tbl Nat) (k : Nat) :
    tget 0 (ws.foldl (fun m w => tput 0 m (f w) 0) m) k = if k ∈ ws.map f then 0 else tget 0 m k := by
  induction ws generalizing m with
  | nil => rfl
  | cons w r ih =>
    rw [List.foldl_cons, ih, tget_tput, List.map_cons]
    by_cases hk : k = f w <;> simp [hk]

/-- A whole-line write leaves the words of its line without errors, and the others as they were. -/
theorem wordErr_portWrite (b : Block) (ck l : Nat) (v : Line) (ck' w : Nat) (hl : l < 640) (hw : w < 5120) :
    wordErr (portWrite b ck l v) ck' w = if ck' = ck ∧ w / 8 = l then 0 else wordErr b ck' w := by
  have hmem : 5120 * ck' + w ∈ ((List.range 8).map (fun i => 8 * l + i)).map (fun w => 5120 * ck + w) ↔ ck' = ck ∧ w / 8 = l := by
    simp only [List.map_map, List.mem_map, List.mem_range, Function.comp]
    exact ⟨fun ⟨i, hi, he⟩ => by omega, fun ⟨hc, hwl⟩ => ⟨w % 8, by omega, by subst hc; omega⟩⟩
  have h := tget_foldl_clear (fun w => 5120 * ck + w) ((List.range 8).map (fun i => 8 * l + i)) b.die.cistErr (5120 * ck' + w)
  simp only [hmem] at h
  exact h

/-! ### Lines written one after the other -/

/-- Lines `data` were written from line `line` of core `ck` on: the block holds them there, without errors, and everything else is
as before. -/
def LinesWritten (b c : Block) (ck line : Nat) (data : List Line) : Prop :=
  (∀ ck' i, i < 40960 → cbyte c ck' i = if ck' = ck ∧ 64 * line ≤ i ∧ i < 64 * (line + data.length)
    then (data.getD (i / 64 - line) 0).extractLsb' (8 * (i % 64)) 8 else cbyte b ck' i) ∧
  (∀ ck' w, w < 5120 → wordErr c ck' w = if ck' = ck ∧ 8 * line ≤ w ∧ w < 8 * (line + data.length) then 0 else wordErr b ck' w) ∧
  { c with die := { c.die with cist := b.die.cist, cistErr := b.die.cistErr } } = b

/-- Nothing written. -/
theorem linesWritten_nil (b : Block) (ck line : Nat) : LinesWritten b b ck line [] := by
  refine ⟨fun ck' i _ => ?_, fun ck' w _ => ?_, rfl⟩
  · rw [if_neg]; simp only [List.length_nil]; omega
  · rw [if_neg]; simp only [List.length_nil]; omega

/-- One line, and then those after it. -/
theorem linesWritten_cons (b c : Block) (ck line : Nat) (v : Line) (data : List Line) (hl : line < 640)
    (h : LinesWritten (portWrite b ck line v) c ck (line + 1) data) : LinesWritten b c ck line (v :: data) := by
  obtain ⟨hbyte, herr, hrest⟩ := h
  refine ⟨fun ck' i hi => ?_, fun ck' w hw => ?_, ?_⟩
  · rw [hbyte ck' i hi, cbyte_portWrite _ _ _ _ _ _ hl hi, List.length_cons]
    by_cases hhere : ck' = ck ∧ i / 64 = line
    · rw [if_neg (by omega), if_pos hhere, if_pos (by omega), show i / 64 - line = 0 by omega, List.getD_cons_zero]
    · rw [if_neg hhere]
      by_cases hlater : ck' = ck ∧ 64 * (line + 1) ≤ i ∧ i < 64 * (line + 1 + data.length)
      · rw [if_pos hlater, if_pos (by omega), show i / 64 - line = i / 64 - (line + 1) + 1 by omega, List.getD_cons_succ]
      · rw [if_neg hlater, if_neg (by omega)]
  · rw [herr ck' w hw, wordErr_portWrite _ _ _ _ _ _ hl hw, List.length_cons]
    by_cases hhere : ck' = ck ∧ w / 8 = line
    · rw [if_pos hhere, if_neg (by omega), if_pos (by omega)]
    · rw [if_neg hhere]
      exact ite_congr (propext (by omega)) (fun _ => rfl) (fun _ => rfl)
  · exact congrArg (fun d : Block => { d with die := { d.die with cist := b.die.cist, cistErr := b.die.cistErr } }) hrest

/-- The lines of a packet written in order, from the `k`-th after `line` on. -/
theorem linesWritten_zipIdx (ck line : Nat) (data : List Line) (k : Nat) (b : Block) (h : line + k + data.length ≤ 640) :
    LinesWritten b ((data.zipIdx k).foldl (fun b e => portWrite b ck (line + e.2) e.1) b) ck (line + k) data := by
  induction data generalizing k b with
  | nil => exact linesWritten_nil b ck (line + k)
  | cons v r ih =>
    rw [List.length_cons] at h
    rw [List.zipIdx_cons, List.foldl_cons]
    exact linesWritten_cons b _ ck (line + k) v r (by omega) (ih (k + 1) _ (by omega))

/-- Written lines leave the cores alone. -/
theorem LinesWritten.coreGet {b c : Block} {ck line : Nat} {data : List Line} (h : LinesWritten b c ck line data) (k : Nat) :
    coreGet c k = coreGet b k := by
  obtain ⟨-, -, hrest⟩ := h
  rw [← hrest]; rfl

/-- Written lines leave the threads alone. -/
theorem LinesWritten.thrGet {b c : Block} {ck line : Nat} {data : List Line} (h : LinesWritten b c ck line data) (k : Nat) :
    thrGet c k = thrGet b k := by
  obtain ⟨-, -, hrest⟩ := h
  rw [← hrest]; rfl

/-! ### Lines read one after the other -/

/-- A read of lines without errors changes nothing and answers the lines (R78, R81). -/
theorem remoteLines_clean (ck n l : Nat) (b : Block) (h : ∀ i < n, CleanLine b ck (l + i)) :
    remoteLines ck n l b = (b, some ((List.range n).map (fun i => cline b ck (l + i)))) := by
  induction n generalizing l with
  | zero => rfl
  | succ n ih =>
    have hfirst : CleanLine b ck l := h 0 (by omega)
    have hlater : ∀ i < n, CleanLine b ck (l + 1 + i) := fun i hi => by
      rw [Nat.add_assoc, Nat.add_comm 1 i]; exact h (i + 1) (by omega)
    unfold remoteLines
    rw [portRead_clean b ck l hfirst]
    dsimp only
    rw [ih (l + 1) hlater, List.range_succ_eq_map, List.map_cons, List.map_map]
    simp only [Function.comp_def, Nat.add_zero, Nat.succ_eq_add_one, Nat.add_assoc, Nat.add_comm 1]

end Sys2Proof.Machine
end

section
/-! SUPPORT. A mesh instruction that goes over the team bus (R54, R166 to R168). -/

namespace Sys2Proof.Machine

/-! ### Outcomes -/

/-- The effect of a core command that its thread issues. -/
theorem effect_onCore {t : Thr} {i : Instr} {f : Block → Block} {s : State} {uses : List Nat} {P : Block → Prop}
    (he : exec i s = onCore t i f s) (hi : Issues s.blk t i uses) (hP : P (f s.blk)) : Effect i s P :=
  ⟨f s.blk, he.trans (onCore_spec t i f s uses hi), hP⟩

/-- The fields of a remote address word (R166). -/
theorem remoteOf_eq (w : Word) :
    remoteOf w = ⟨w.toNat % 1024, w.toNat / 2 ^ 10 % 64, w.toNat / 2 ^ 16 % 64, w.toNat / 2 ^ 22 % 128⟩ := by
  simp [remoteOf, fld]

/-- The first line of a local span (R167). -/
theorem fld_line (w : Word) : fld w 0 10 = w.toNat % 1024 := by simp [fld]

/-! ### The checks of a mesh instruction -/

/-- The remote address of sA names the thread's own team, and a request can begin: fewer than 16 are outstanding (R54, R63, R66). -/
def NamesOwnTeam (b : Block) (t : Thr) (x : Fields) (p : Nat) : Prop :=
  padOf b (teamKey t.core.team) = some p ∧
  (remoteOf ((thrGet b (thrKey t)).rs x.a)).u < (padGet b p).env.width ∧
  (remoteOf ((thrGet b (thrKey t)).rs x.a)).v < (padGet b p).env.height ∧
  (coreGet b (coreKey t.core)).outstanding < 16 ∧
  relTeam (padGet b p) (remoteOf ((thrGet b (thrKey t)).rs x.a)).u (remoteOf ((thrGet b (thrKey t)).rs x.a)).v = teamKey t.core.team

/-- A mesh instruction that names its own team has its effect with that team and its remote word. -/
theorem meshOp_ownTeam {b : Block} {t : Thr} {x : Fields} {p : Nat} {i : Instr} {uses : List Nat} {legal : Bool}
    (k : Block → Nat → Nat → Remote → Block) (h : NamesOwnTeam b t x p) (hi : Issues b t i uses) (hl : legal = true) :
    meshOp t x uses legal k b = k (issued b t) p (teamKey t.core.team) (remoteOf ((thrGet b (thrKey t)).rs x.a)) := by
  obtain ⟨hp, hu, hv, ho, hteam⟩ := h
  have hpad : padNum (issued b t) (teamKey t.core.team) = p := by
    show (padOf b (teamKey t.core.team)).getD 0 = p
    rw [hp]; rfl
  have hget : padGet (issued b t) p = padGet b p := rfl
  have hout : (coreGet (issued b t) (coreKey t.core)).outstanding < 16 := by rw [issued_core]; exact ho
  unfold meshOp
  rw [issue_spec b t i uses legal _ hi hl]
  dsimp only
  rw [hpad, hget, iss_rs, if_neg (by omega), if_neg (by omega), hteam]

/-! ### The count of requests (R63) -/

@[simp] theorem coreGet_addOutstanding (b : Block) (ck k : Nat) : coreGet (addOutstanding b ck) k =
    if k = ck then { coreGet b ck with outstanding := (coreGet b ck).outstanding + 1 } else coreGet b k := coreGet_coreMod _ _ _ _

@[simp] theorem coreGet_subOutstanding (b : Block) (ck k : Nat) : coreGet (subOutstanding b ck) k =
    if k = ck then { coreGet b ck with outstanding := (coreGet b ck).outstanding - 1 } else coreGet b k := coreGet_coreMod _ _ _ _

theorem addOutstanding_rest (b : Block) (ck : Nat) :
    { addOutstanding b ck with die := { (addOutstanding b ck).die with cores := b.die.cores } } = b := rfl

theorem thrGet_addOutstanding (b : Block) (ck k : Nat) : thrGet (addOutstanding b ck) k = thrGet b k := rfl

theorem subOutstanding_rest (b : Block) (ck : Nat) :
    { subOutstanding b ck with die := { (subOutstanding b ck).die with cores := b.die.cores } } = b := rfl

theorem thrGet_subOutstanding (b : Block) (ck k : Nat) : thrGet (subOutstanding b ck) k = thrGet b k := rfl

/-- A change of the thread's own core leaves what `OnlyThread` leaves. -/
theorem OnlyThread.of_cores {b c d : Block} {t : Thr} (h : OnlyThread b c t) (hcore : ∀ k, k ≠ coreKey t.core → coreGet d k = coreGet c k)
    (hrest : { d with die := { d.die with cores := c.die.cores } } = c) : OnlyThread b d t := by
  obtain ⟨hthr, hcores, hbc⟩ := h
  refine ⟨fun k hk => ?_, fun k hk => (hcore k hk).trans (hcores k hk), ?_⟩
  · rw [← hthr k hk, ← hrest]; rfl
  · exact (congrArg (fun e : Block => { e with die := { e.die with thr := b.die.thr, cores := b.die.cores } }) hrest).trans hbc

/-! ### The transfers -/

/-- A remote write that passes its checks writes its lines (R73, R75). -/
theorem remoteWrite_lines (b : Block) (p ck line : Nat) (data : List Line) (hl : line < 640) (hn : line + data.length ≤ 640)
    (hw : (coreGet b ck).wB ≤ line) : LinesWritten b (remoteWrite b p ck line data) ck line data := by
  unfold remoteWrite
  rw [if_neg (by omega), if_neg (by omega)]
  exact linesWritten_zipIdx ck line data 0 b (by omega)

/-- A write to the own team: its lines are written at once, and its request has ended (R54). -/
theorem sendRemote_write_own (b : Block) (t : Thr) (p cx line : Nat) (data : List Line) (hl : line < 640) (hn : line + data.length ≤ 640)
    (hw : (coreGet b (64 * teamKey t.core.team + cx)).wB ≤ line) :
    ∃ d, LinesWritten (addOutstanding b (coreKey t.core)) d (64 * teamKey t.core.team + cx) line data ∧
      sendRemote b t p (teamKey t.core.team) (.write cx line data) = subOutstanding d (coreKey t.core) := by
  refine ⟨_, remoteWrite_lines _ p _ line data hl hn ?_, ?_⟩
  · rw [coreGet_addOutstanding]
    split
    · rename_i he; rw [← he]; exact hw
    · exact hw
  · unfold sendRemote
    dsimp only
    rw [if_pos rfl]

/-- A read from the own team: its lines are delivered at once, and its request has ended (R54). -/
theorem sendRemote_read_own (b : Block) (t : Thr) (p cx line n thr : Nat) (back : ReadDest) (hn : line + n ≤ 640)
    (hc : ∀ i < n, CleanLine b (64 * teamKey t.core.team + cx) (line + i)) :
    sendRemote b t p (teamKey t.core.team) (.readReq cx line n thr back) =
      subOutstanding (deliverRead (addOutstanding b (coreKey t.core)) thr back
        ((List.range n).map (fun i => cline b (64 * teamKey t.core.team + cx) (line + i)))) (coreKey t.core) := by
  have hr := remoteLines_clean (64 * teamKey t.core.team + cx) n line (addOutstanding b (coreKey t.core)) hc
  unfold sendRemote
  dsimp only
  rw [if_pos rfl, if_neg (by omega), hr]
  rfl

/-- The lines of a read response for the cistern are written in order (R168). -/
theorem deliverRead_lines (b : Block) (thr l : Nat) (data : List Line) :
    deliverRead b thr (.lines l) data = data.zipIdx.foldl (fun b e => portWrite b (thr / 4) (l + e.2) e.1) b := rfl

/-- The request of a core begins over the team bus, lines are written, the request ends, and the thread goes on: the bytes are
stored, and nothing stays outstanding. -/
theorem busLines_stored {b d : Block} {t : Thr} {ck line n : Nat} {data : List Line} {f : Nat → Byte}
    (h : LinesWritten (addOutstanding (issued b t) (coreKey t.core)) d ck line data) (hn : NextOk b t) (hlen : data.length = n)
    (hf : ∀ i < 64 * n, f i = (data.getD (i / 64) 0).extractLsb' (8 * (i % 64)) 8) :
    let c := advance (subOutstanding d (coreKey t.core)) (thrKey t)
    Stored b c t ck (64 * line) (64 * n) f ∧ thrGet c (thrKey t) = nextThr b t ∧ SameCore b c t := by
  have hthr : ∀ k, thrGet (subOutstanding d (coreKey t.core)) k = thrGet (issued b t) k := fun k => by
    rw [thrGet_subOutstanding, h.thrGet, thrGet_addOutstanding]
  have hcore : coreGet (subOutstanding d (coreKey t.core)) (coreKey t.core) = coreGet (issued b t) (coreKey t.core) := by
    rw [coreGet_subOutstanding, if_pos rfl, h.coreGet, coreGet_addOutstanding, if_pos rfl, Nat.add_sub_cancel]
  have hadv := advance_of b (subOutstanding d (coreKey t.core)) t hn (by rw [hthr]; exact iss_pc b t) (by rw [hcore, issued_cB])
  obtain ⟨-, -, hbus⟩ := (onlyThread_issued b t).of_cores (fun k hk => by rw [coreGet_addOutstanding, if_neg hk])
    (addOutstanding_rest (issued b t) (coreKey t.core))
  obtain ⟨hbyte, herr, hrest⟩ := h
  intro c
  have hc : c = _ := hadv
  rw [hc]
  refine ⟨⟨fun k i hi => ?_, fun k w hw => ?_, fun k hk => ?_, fun k hk => ?_, ?_⟩, ?_, ?_⟩
  · refine (hbyte k i hi).trans ?_
    rw [hlen]
    by_cases hin : k = ck ∧ 64 * line ≤ i ∧ i < 64 * (line + n)
    · rw [if_pos hin, if_pos (by omega), hf _ (by omega), show (i - 64 * line) / 64 = i / 64 - line by omega,
        show (i - 64 * line) % 64 = i % 64 by omega]
    · rw [if_neg hin, if_neg (by omega)]; rfl
  · refine (herr k w hw).trans ?_
    rw [hlen]
    exact ite_congr (propext (by omega)) (fun _ => rfl) (fun _ => rfl)
  · rw [thrGet_thrMod, if_neg hk, hthr, issued_thr_ne b t k hk]
  · rw [coreGet_thrMod, coreGet_subOutstanding, if_neg hk]
    refine (LinesWritten.coreGet ⟨hbyte, herr, hrest⟩ k).trans ?_
    rw [coreGet_addOutstanding, if_neg hk, issued_core_ne b t k hk]
  · have hd := congrArg (fun e : Block =>
      { e with die := { e.die with thr := b.die.thr, cores := b.die.cores, cist := b.die.cist, cistErr := b.die.cistErr } }) hrest
    exact hd.trans (congrArg (fun e : Block => { e with die := { e.die with cist := b.die.cist, cistErr := b.die.cistErr } }) hbus)
  · rw [thrGet_thrMod, if_pos rfl, hthr, issued_thr]; rfl
  · unfold SameCore CoreIs
    rw [coreGet_thrMod, hcore]
    exact sameCore_issued b t

/-! ### What each instruction sends to its own team (R167, R168) -/

/-- The lines of a cistern span, as bytes. -/
theorem clines_byte (b : Block) (ck l n i : Nat) (hi : i < 64 * n) :
    (((List.range n).map (fun j => cline b ck (l + j))).getD (i / 64) 0).extractLsb' (8 * (i % 64)) 8 = cbyte b ck (64 * l + i) := by
  have hn : i / 64 < n := by omega
  have hget : ((List.range n).map (fun j => cline b ck (l + j))).getD (i / 64) 0 = cline b ck (l + i / 64) := by simp [hn]
  rw [hget, cline_byte _ _ _ _ (by omega), show 64 * (l + i / 64) + i % 64 = 64 * l + i by omega]

/-- What an `RWR` to the own team sends: the lines of its local span (R167). -/
theorem rwrOp_ownTeam {b : Block} {t : Thr} {x : Fields} {p : Nat} (h : NamesOwnTeam b t x p) (hi : Issues b t (.rwr t x) []) (hd : x.d = 0)
    (himm : x.imm = 0) (hm : x.mod.toNat + 1 ≤ 16) (hspan : ((thrGet b (thrKey t)).rs x.b).toNat % 1024 + (x.mod.toNat + 1) ≤ 640)
    (hc : ∀ i < x.mod.toNat + 1, CleanLine b (coreKey t.core) (((thrGet b (thrKey t)).rs x.b).toNat % 1024 + i)) :
    rwrOp t x b = advance (sendRemote (issued b t) t p (teamKey t.core.team) (.write (remoteOf ((thrGet b (thrKey t)).rs x.a)).cx
      (remoteOf ((thrGet b (thrKey t)).rs x.a)).line ((List.range (x.mod.toNat + 1)).map (fun i =>
        cline b (coreKey t.core) (((thrGet b (thrKey t)).rs x.b).toNat % 1024 + i))))) (thrKey t) := by
  have hmod : fld x.mod 0 4 = x.mod.toNat := by rw [fld]; omega
  have hlines := remoteLines_clean (coreKey t.core) (x.mod.toNat + 1) (((thrGet b (thrKey t)).rs x.b).toNat % 1024) (issued b t) hc
  unfold rwrOp
  rw [meshOp_ownTeam _ h hi (by simp [hd, himm, zeros]; omega)]
  dsimp only
  rw [iss_rs, fld_line, hmod, if_neg (by omega), hlines]
  rfl

/-- What an `RWRV` to the own team sends: its vector register (R167). -/
theorem rwrvOp_ownTeam {b : Block} {t : Thr} {x : Fields} {p : Nat} (h : NamesOwnTeam b t x p) (hi : Issues b t (.rwrv t x) [x.b.toNat])
    (hd : x.d = 0) (himm : x.imm = 0) (hm : x.mod = 0) (hv : x.b.toNat < 16) :
    rwrvOp t x b = advance (sendRemote (issued b t) t p (teamKey t.core.team) (.write (remoteOf ((thrGet b (thrKey t)).rs x.a)).cx
      (remoteOf ((thrGet b (thrKey t)).rs x.a)).line [(coreGet b (coreKey t.core)).rv x.b.toNat])) (thrKey t) := by
  unfold rwrvOp
  rw [meshOp_ownTeam _ h hi (by simp [hd, himm, hm, isV, hv]), issued_rv]

/-- What an `RRD` from the own team sends: a request for lines into its local span, which is scratch (R168). -/
theorem rrdOp_ownTeam {b : Block} {t : Thr} {x : Fields} {p : Nat} (h : NamesOwnTeam b t x p) (hi : Issues b t (.rrd t x) []) (hd : x.d = 0)
    (himm : x.imm = 0) (hm : x.mod.toNat + 1 ≤ 16) (hspan : ((thrGet b (thrKey t)).rs x.b).toNat % 1024 + (x.mod.toNat + 1) ≤ 640)
    (hw : (coreGet b (coreKey t.core)).wB ≤ ((thrGet b (thrKey t)).rs x.b).toNat % 1024) :
    rrdOp t x b = advance (sendRemote (issued b t) t p (teamKey t.core.team) (.readReq (remoteOf ((thrGet b (thrKey t)).rs x.a)).cx
      (remoteOf ((thrGet b (thrKey t)).rs x.a)).line (x.mod.toNat + 1) (thrKey t)
      (.lines (((thrGet b (thrKey t)).rs x.b).toNat % 1024)))) (thrKey t) := by
  have hmod : fld x.mod 0 4 = x.mod.toNat := by rw [fld]; omega
  unfold rrdOp
  rw [meshOp_ownTeam _ h hi (by simp [hd, himm, zeros]; omega)]
  dsimp only
  rw [iss_rs, iss_wB, fld_line, hmod, if_neg (by omega), if_neg (by omega)]

/-- What an `RRDV` from the own team sends, once its register awaits the response (R168). -/
theorem rrdvOp_ownTeam {b : Block} {t : Thr} {x : Fields} {p : Nat} (h : NamesOwnTeam b t x p) (hi : Issues b t (.rrdv t x) [x.d.toNat])
    (hb : x.b = 0) (himm : x.imm = 0) (hm : x.mod = 0) (hv : x.d.toNat < 16) :
    rrdvOp t x b = advance (sendRemote (coreMod (issued b t) (coreKey t.core) (fun c =>
      { c with await := c.await ++ [(t.th.val, x.d.toNat)] })) t p (teamKey t.core.team)
      (.readReq (remoteOf ((thrGet b (thrKey t)).rs x.a)).cx (remoteOf ((thrGet b (thrKey t)).rs x.a)).line 1 (thrKey t)
        (.vreg x.d.toNat))) (thrKey t) := by
  unfold rrdvOp
  rw [meshOp_ownTeam _ h hi (by simp [hb, himm, hm, isV, hv])]
  dsimp only
  rw [thrKey_mod]

/-! ### A line for a vector register (R168) -/

/-- A wait for a response that begins and ends leaves no trace, where there was none before (R168). -/
theorem await_erase_append {l : List (Nat × Nat)} {e : Nat × Nat} (h : l.contains e = false) : (l ++ [e]).erase e = l := by
  have hl : e ∉ l := by simpa using h
  rw [List.erase_append_right _ hl]
  simp

/-- A vector register that an instruction uses awaits no response where the instruction issues (R43, R168). -/
theorem not_await_of_issues {b : Block} {t : Thr} {i : Instr} {r : Nat} (h : Issues b t i [r]) :
    (coreGet b (coreKey t.core)).await.contains (t.th.val, r) = false := by
  obtain ⟨hc, -⟩ := h
  rw [canIssue, coreKey_thrKey, thrKey_mod, Bool.and_eq_true, List.all_cons, List.all_nil, Bool.and_true, Bool.not_eq_true'] at hc
  exact hc.2

/-- The block after the team bus has served an `RRDV`: its register awaited the response, its request began, the line came, and the
request ended. -/
def busRead (b : Block) (t : Thr) (r : Nat) (v : Line) : Block :=
  subOutstanding (deliverRead (addOutstanding (coreMod b (coreKey t.core) (fun c => { c with await := c.await ++ [(t.th.val, r)] }))
    (coreKey t.core)) (thrKey t) (.vreg r) [v]) (coreKey t.core)

/-- The team bus leaves only the line in the register: no wait for a response, and nothing outstanding. -/
theorem coreGet_busRead (b : Block) (t : Thr) (r : Nat) (v : Line)
    (h : (coreGet b (coreKey t.core)).await.contains (t.th.val, r) = false) (k : Nat) :
    coreGet (busRead b t r v) k = if k = coreKey t.core then (coreGet b (coreKey t.core)).wv r v else coreGet b k := by
  unfold busRead
  simp only [deliverRead, coreKey_thrKey, thrKey_mod, coreGet_subOutstanding, coreGet_coreMod, coreGet_addOutstanding, if_true,
    CoreS.wv, List.headD_cons, Nat.add_sub_cancel, await_erase_append h]
  split <;> rfl

/-- Everything beside threads and cores after the team bus has served an `RRDV`. -/
theorem busRead_rest (b : Block) (t : Thr) (r : Nat) (v : Line) :
    { busRead b t r v with die := { (busRead b t r v).die with cores := b.die.cores } } = b := by
  simp only [busRead, subOutstanding, deliverRead, addOutstanding, coreMod, corePut]

theorem thrGet_busRead (b : Block) (t : Thr) (r : Nat) (v : Line) (k : Nat) : thrGet (busRead b t r v) k = thrGet b k := by
  simp only [busRead, deliverRead, thrGet_subOutstanding, thrGet_coreMod, thrGet_addOutstanding]

/-- An `RRDV` served over the team bus, after which its thread goes on. -/
theorem busRead_delivered {b : Block} {t : Thr} {r : Nat} {v : Line} {i : Instr} (hi : Issues b t i [r]) (hn : NextOk b t) :
    let c := advance (busRead (issued b t) t r v) (thrKey t)
    CoreIs c t ((coreGet b (coreKey t.core)).wv r v) ∧ thrGet c (thrKey t) = nextThr b t ∧ OnlyThread b c t := by
  have hthr : ∀ k, thrGet (busRead (issued b t) t r v) k = thrGet (issued b t) k := thrGet_busRead (issued b t) t r v
  have hcore := coreGet_busRead (issued b t) t r v (by rw [issued_core]; exact not_await_of_issues hi)
  have hadv := advance_of b _ t hn (by rw [hthr]; exact iss_pc b t) (by rw [hcore, if_pos rfl]; exact issued_cB b t)
  have honly : OnlyThread b (busRead (issued b t) t r v) t :=
    (onlyThread_issued b t).of_cores (fun k hk => by rw [hcore, if_neg hk]) (busRead_rest _ t r v)
  intro c
  have hc : c = _ := hadv
  rw [hc]
  refine ⟨?_, ?_, onlyThread_thrPut _ _ _ _ honly⟩
  · unfold CoreIs
    rw [coreGet_thrMod, hcore, if_pos rfl, issued_core]
    rfl
  · rw [thrGet_thrMod, if_pos rfl, hthr, issued_thr]; rfl

/-! ### The statement -/

/-- Settles O22: a request to the own team begins, moves its lines and ends within the step, whatever bits [31:29] of its remote word
are (log 118), so that beside the lines only the thread has gone on. -/
theorem teamBusTransfers : Obligations.TeamBusTransfers := by
  unfold Obligations.TeamBusTransfers
  intro t x s p hp himm hn h ck core y w u v far line l n hu hv ho hteam hn16 hr
  have hown : NamesOwnTeam s.blk t x p := by
    unfold NamesOwnTeam
    rw [remoteOf_eq]
    exact ⟨hp, hu, hv, ho, hteam⟩
  have hcx : 64 * teamKey t.core.team + (remoteOf (h.rs x.a)).cx = far := by rw [remoteOf_eq]
  have hline : (remoteOf (h.rs x.a)).line = line := by rw [remoteOf_eq]
  have hcore : ∀ k, (coreGet (issued s.blk t) k).wB = (coreGet s.blk k).wB := fun k => by
    by_cases hk : k = coreKey t.core
    · rw [hk, iss_wB]
    · rw [issued_core_ne _ _ _ hk]
  refine ⟨?rwr, ?rwrv, ?rrd, ?rrdv⟩
  case rwr =>
    intro hd hl hclean hw hi
    obtain ⟨c, hwritten, hsent⟩ := sendRemote_write_own (issued s.blk t) t p (remoteOf (h.rs x.a)).cx line
      ((List.range n).map (fun i => cline s.blk ck (l + i))) (by omega) (by simpa using hr) (by rw [hcx, hcore]; exact hw)
    rw [hcx] at hwritten
    refine effect_onCore rfl hi ?_
    rw [rwrOp_ownTeam hown hi hd himm hn16 hl hclean, hline, hsent]
    exact busLines_stored hwritten hn (by simp) (fun i hi => (clines_byte _ _ _ _ _ hi).symm)
  case rwrv =>
    intro hd hm hb hw hi
    obtain ⟨c, hwritten, hsent⟩ := sendRemote_write_own (issued s.blk t) t p (remoteOf (h.rs x.a)).cx line
      [core.rv x.b.toNat] (by omega) (by rw [List.length_singleton]; omega) (by rw [hcx, hcore]; exact hw)
    rw [hcx] at hwritten
    refine effect_onCore rfl hi ?_
    rw [rwrvOp_ownTeam hown hi hd himm hm hb, hline, hsent]
    exact busLines_stored (n := 1) hwritten hn rfl (fun i hi => by
      rw [show i / 64 = 0 by omega, Nat.mod_eq_of_lt (by omega)]; rfl)
  case rrd =>
    intro hd hl hw hclean hi
    refine effect_onCore rfl hi ?_
    rw [rrdOp_ownTeam hown hi hd himm hn16 hl hw, hline,
      sendRemote_read_own (issued s.blk t) t p _ line _ _ _ hr (by rw [hcx]; exact hclean), hcx]
    have hwritten := linesWritten_zipIdx ck l ((List.range n).map (fun i => cline s.blk far (line + i))) 0
      (addOutstanding (issued s.blk t) ck) (by simpa using hl)
    rw [deliverRead_lines, coreKey_thrKey]
    exact busLines_stored hwritten hn (by simp) (fun i hi => (clines_byte _ _ _ _ _ hi).symm)
  case rrdv =>
    intro hb hm hd hclean hi
    refine effect_onCore rfl hi ?_
    rw [rrdvOp_ownTeam hown hi hb himm hm hd, hline,
      sendRemote_read_own _ t p _ line 1 _ _ (by omega) (by rw [hcx]; intro i hi; rw [show i = 0 by omega]; exact hclean), hcx]
    exact busRead_delivered hi hn

end Sys2Proof.Machine
end

section
/-! SUPPORT. What a pump moves from HBM to the cisterns of its team (R58, R91, R169). -/

namespace Sys2Proof.Machine

/-- The effect of a command of the module itself. -/
theorem effect_onBlk {i : Instr} {f : Block → Block} {s : State} {P : Block → Prop} (he : exec i s = onBlk f s) (hP : P (f s.blk)) :
    Effect i s P := ⟨f s.blk, he, hP⟩

/-! ### Paddock addresses of HBM (R91) -/

/-- The device address of a paddock address inside the paddock's segments. -/
def hbmPlace (segs : List Nat) (a : Nat) : Nat := segs.getD (a / segBytes) 0 * segBytes + a % segBytes

/-- A paddock address inside the paddock's segments maps to its place. -/
theorem hbmAddr_eq (segs : List Nat) (a : Nat) (h : a < segs.length * segBytes) : hbmAddr segs a = some (hbmPlace segs a) := by
  have hk : a / segBytes < segs.length := Nat.div_lt_of_lt_mul (by rwa [Nat.mul_comm])
  simp [hbmAddr, hbmPlace, hk]

/-- A line of a paddock address lies in one segment. -/
theorem hbmPlace_line (segs : List Nat) (a j : Nat) (hj : j < 64) : hbmPlace segs (64 * a + j) = hbmPlace segs (64 * a) + j := by
  unfold hbmPlace segBytes
  rw [show (64 * a + j) / 2097152 = 64 * a / 2097152 by omega]
  omega

/-! ### Reads of HBM without errors (R97) -/

/-- A read of units without errors changes nothing and answers the bytes. -/
theorem hread_clean (b : Block) (a n : Nat) (reader : Option Nat) (hn : 0 < n) (h : ∀ j < n, tget 0 b.hbm.err ((a + j) / 32) = 0) :
    hread b a n reader = (b, some (hbytes b a n)) := by
  have hunit : ∀ u ∈ (List.range ((a + n - 1) / 32 + 1 - a / 32)).map (fun i => a / 32 + i), tget 0 b.hbm.err u = 0 := by
    intro u hu
    obtain ⟨i, hi, rfl⟩ := List.mem_map.1 hu
    have hi' := List.mem_range.1 hi
    have hj := h (32 * (a / 32 + i) - a) (by omega)
    rwa [show (a + (32 * (a / 32 + i) - a)) / 32 = a / 32 + i by omega] at hj
  have hlog : ∀ us : List Nat, (∀ u ∈ us, tget 0 b.hbm.err u = 0) → us.foldl (fun b u => if tget 0 b.hbm.err u = 1 then
      hbmMod (hbmCe b (32 * u)) (fun h => { h with err := tput 0 h.err u 0 }) else b) b = b := by
    intro us
    induction us with
    | nil => intro _; rfl
    | cons u r ih =>
      intro hu
      rw [List.foldl_cons, if_neg (by rw [hu u (List.mem_cons_self ..)]; decide)]
      exact ih (fun v hv => hu v (List.mem_cons_of_mem _ hv))
  unfold hread
  dsimp only
  rw [List.find?_eq_none.2 (by intro u hu; simp [hunit u hu])]
  dsimp only
  rw [hlog _ hunit]

/-- Byte `j` of a line read from HBM. -/
theorem lineOf_hbytes (b : Block) (a j : Nat) (hj : j < 64) : (lineOf (hbytes b a 64)).extractLsb' (8 * j) 8 = tget 0 b.hbm.mem (a + j) := by
  unfold hbytes
  rw [lineOf_byte _ _ (by simp) hj]
  simp [hj]

/-! ### Lines of a team's cisterns (R169) -/

/-- Lines `line` to `line + n - 1` of a team's cisterns, counted from line 0 of its core c0, were written with the bytes `g`, which
are counted in the same way; everything else is as before. -/
def TeamLines (b c : Block) (team line n : Nat) (g : Nat → Byte) : Prop :=
  (∀ ck i, i < 40960 → cbyte c ck i = if 64 * team ≤ ck ∧ 64 * line ≤ 40960 * (ck - 64 * team) + i ∧
      40960 * (ck - 64 * team) + i < 64 * (line + n)
    then g (40960 * (ck - 64 * team) + i) else cbyte b ck i) ∧
  { c with die := { c.die with cist := b.die.cist, cistErr := b.die.cistErr } } = b

/-- No line written. -/
theorem teamLines_zero (b : Block) (team line : Nat) (g : Nat → Byte) : TeamLines b b team line 0 g :=
  ⟨fun ck i _ => by rw [if_neg (by omega)], rfl⟩

/-- One line written through its core's port, and then those after it. -/
theorem teamLines_succ {b c : Block} {team line n : Nat} {g : Nat → Byte} {v : Line}
    (hv : ∀ j < 64, v.extractLsb' (8 * j) 8 = g (64 * line + j))
    (h : TeamLines (portWrite b (spanLine team line).1 (spanLine team line).2 v) c team (line + 1) n g) :
    TeamLines b c team line (n + 1) g := by
  obtain ⟨hbyte, hrest⟩ := h
  refine ⟨fun ck i hi => ?_, ?_⟩
  · rw [hbyte ck i hi]
    unfold spanLine
    rw [cbyte_portWrite _ _ _ _ _ _ (Nat.mod_lt _ (by decide)) hi]
    by_cases hhere : ck = 64 * team + line / 640 ∧ i / 64 = line % 640
    · rw [if_neg (by omega), if_pos hhere, if_pos (by omega), hv _ (by omega)]
      congr 1
      omega
    · rw [if_neg hhere]
      exact ite_congr (propext (by omega)) (fun _ => rfl) (fun _ => rfl)
  · exact congrArg (fun d : Block => { d with die := { d.die with cist := b.die.cist, cistErr := b.die.cistErr } }) hrest

/-! ### The move -/

/-- A command from HBM whose span is mapped and without errors moves every line. -/
theorem movePump_in (team p : Nat) (segs : List Nat) (c : PumpCmd) (hdir : c.dir = 0) (n i : Nat) (b : Block)
    (hmap : 64 * (c.addr + (i + n)) ≤ segs.length * segBytes)
    (hclean : ∀ j < 64 * (i + n), tget 0 b.hbm.err (hbmPlace segs (64 * c.addr + j) / 32) = 0) :
    ∃ d, movePump team p segs c n i b = (d, true) ∧
      TeamLines b d team (c.line + i) n (fun a => tget 0 b.hbm.mem (hbmPlace segs (64 * c.addr + (a - 64 * c.line)))) := by
  induction n generalizing i b with
  | zero => exact ⟨b, rfl, teamLines_zero b team _ _⟩
  | succ n ih =>
    have haddr := hbmAddr_eq segs (64 * (c.addr + i)) (by omega)
    have hplace : ∀ j < 64, hbmPlace segs (64 * (c.addr + i)) + j = hbmPlace segs (64 * c.addr + (64 * i + j)) := fun j hj => by
      rw [← hbmPlace_line segs (c.addr + i) j hj]
      congr 1
      omega
    have hread := hread_clean b (hbmPlace segs (64 * (c.addr + i))) 64 (some p) (by decide)
      (fun j hj => by rw [hplace j hj]; exact hclean _ (by omega))
    obtain ⟨d, hmove, hlines⟩ := ih (i + 1) (portWrite b (spanLine team (c.line + i)).1 (spanLine team (c.line + i)).2
      (lineOf (hbytes b (hbmPlace segs (64 * (c.addr + i))) 64))) (by rwa [Nat.add_assoc i, Nat.add_comm 1])
      (by rwa [Nat.add_assoc i, Nat.add_comm 1])
    refine ⟨d, ?_, teamLines_succ (fun j hj => ?_) hlines⟩
    · unfold movePump
      dsimp only
      rw [haddr]
      dsimp only
      rw [if_pos hdir, hread]
      exact hmove
    · rw [lineOf_hbytes _ _ _ hj, hplace j hj, show 64 * (c.line + i) + j - 64 * c.line = 64 * i + j by omega]

/-! ### The end of a command -/

/-- Each pump after a write of one. -/
@[simp] theorem pumpGet_pumpPut (b : Block) (k j : Nat) (x : PumpS) : pumpGet (pumpPut b k x) j = if j = k then x else pumpGet b j :=
  tget_tput _ _ _ _ _

/-- The command at the head of a queue completes: its lines have been moved, and where it names no counter it only leaves (R58). -/
theorem pumpComplete_moved {k : TeamId} {b d : Block} {p : Nat} {c : PumpCmd} {r : List PumpCmd} (hp : InPad b (teamKey k) p)
    (hq : (pumpGet b (teamKey k)).q = c :: r) (hdir : c.dir = 0) (hamount : c.amount = 0)
    (hmove : movePump (teamKey k) p (padSegs b (padGet b p)) c c.len 0 b = (d, true)) :
    pumpComplete k b = pumpLeave d (teamKey k) r := by
  obtain ⟨hpad, hruns⟩ := hp
  unfold pumpComplete
  dsimp only
  rw [hq]
  dsimp only
  rw [hpad]
  dsimp only
  rw [hruns, if_neg (by decide), if_neg (by rw [hdir]; decide), hmove]
  dsimp only
  unfold completionAdd
  rw [if_pos hamount]

/-- Settles O25, by induction on the lines that are still to move: each lies in one segment of HBM and goes through the port of one
core. -/
theorem pumpMovesLines : Obligations.PumpMovesLines := by
  unfold Obligations.PumpMovesLines
  intro k s p line len hp thr r hpad team segs from_ hq _ hmap hclean
  obtain ⟨d, hmove, hbyte, hrest⟩ := movePump_in team p segs ⟨0, hp, line, len, 0, 0, thr, 0⟩ rfl len 0 s.blk
    (by rwa [Nat.zero_add]) (by rwa [Nat.zero_add])
  have hpumps : ∀ j, pumpGet d j = pumpGet s.blk j := fun j => by rw [← hrest]; rfl
  refine effect_onBlk rfl ?_
  rw [pumpComplete_moved hpad hq rfl rfl hmove]
  refine ⟨hbyte, ?_, fun j hj => ?_, ?_⟩
  · unfold pumpLeave
    rw [pumpGet_pumpPut, if_pos rfl]
  · unfold pumpLeave
    rw [pumpGet_pumpPut, if_neg hj, hpumps]
  · exact congrArg (fun e : Block => { e with die := { e.die with pumps := s.blk.die.pumps } }) hrest

end Sys2Proof.Machine
end

section
/-! SUPPORT. The way of a mesh packet and its hops (R64, R65, R67, R68). -/

namespace Sys2Proof.Machine

/-! ### Routes (R65) -/

/-- How many numbers lie after `a` up to `b`. -/
theorem stretch_length (a b : Nat) : (stretch a b).length = (b - a) + (a - b) := by
  unfold stretch
  split
  · rw [List.length_map, List.length_range]; omega
  · rw [List.length_map, List.length_range]; omega

/-- The `i`-th number after `a` on the way to `b`. -/
theorem stretch_get (a b i : Nat) (h : i < (b - a) + (a - b)) : (stretch a b)[i]? = some (if a ≤ b then a + (i + 1) else a - (i + 1)) := by
  unfold stretch
  split
  · rw [List.getElem?_map, List.getElem?_range (by omega), Option.map_some]
    congr 1
    omega
  · rw [List.getElem?_map, List.getElem?_range (by omega), Option.map_some]
    congr 1
    omega

/-- A way visits the columns and the rows between its ends, and its sender. -/
theorem meshRoute_length (a d : TeamId) : (meshRoute a d).length =
    (d.col.val - a.col.val) + (a.col.val - d.col.val) + ((d.row.val - a.row.val) + (a.row.val - d.row.val)) + 1 := by
  simp only [meshRoute, List.length_append, List.length_cons, List.length_map, stretch_length]
  omega

/-- A way begins along the row of its sender. -/
theorem meshRoute_row (a d : TeamId) (i : Nat) (h : i ≤ (d.col.val - a.col.val) + (a.col.val - d.col.val)) :
    (meshRoute a d).getD i 0 = (if a.col.val ≤ d.col.val then a.col.val + i else a.col.val - i) * 59 + a.row.val := by
  unfold meshRoute
  rw [List.getD_eq_getElem?_getD, List.getElem?_append_left (by simp only [List.length_cons, List.length_map, stretch_length]; omega)]
  cases i with
  | zero => simp [teamKey]
  | succ j => rw [List.getElem?_cons_succ, List.getElem?_map, stretch_get _ _ _ (by omega)]; rfl

/-- A way ends along the column of its destination. -/
theorem meshRoute_col (a d : TeamId) (i : Nat) (h : i ≤ (d.row.val - a.row.val) + (a.row.val - d.row.val)) :
    (meshRoute a d).getD ((d.col.val - a.col.val) + (a.col.val - d.col.val) + i) 0 =
      d.col.val * 59 + (if a.row.val ≤ d.row.val then a.row.val + i else a.row.val - i) := by
  cases i with
  | zero =>
    rw [Nat.add_zero, meshRoute_row a d _ (Nat.le_refl _)]
    have hcol : (if a.col.val ≤ d.col.val then a.col.val + ((d.col.val - a.col.val) + (a.col.val - d.col.val))
      else a.col.val - ((d.col.val - a.col.val) + (a.col.val - d.col.val))) = d.col.val := by split <;> omega
    rw [hcol]
    simp
  | succ j =>
    have hlen : (teamKey a :: (stretch a.col.val d.col.val).map (fun c => c * 59 + a.row.val)).length =
      (d.col.val - a.col.val) + (a.col.val - d.col.val) + 1 := by rw [List.length_cons, List.length_map, stretch_length]
    unfold meshRoute
    rw [List.getD_eq_getElem?_getD, List.getElem?_append_right (by omega), hlen,
      show ∀ n : Nat, n + (j + 1) - (n + 1) = j from fun n => by omega, List.getElem?_map, stretch_get _ _ _ (by omega)]
    rfl

/-! ### Which packet moves (R67) -/

/-- What a fold that keeps its choice or takes the next element chooses is one of the elements. -/
theorem mem_of_foldl_choice {α : Type} (f : Option α → α → Option α) (hf : ∀ a q, f a q = some q ∨ f a q = a) (l : List α) (a : Option α)
    (m : α) (h : l.foldl f a = some m) : a = some m ∨ m ∈ l := by
  induction l generalizing a with
  | nil => exact .inl h
  | cons q r ih =>
    rcases ih (f a q) h with hq | hr
    · rcases hf a q with hc | hc
      · exact .inr (by rw [hc, Option.some.injEq] at hq; rw [hq]; exact List.mem_cons_self ..)
      · exact .inl (hc ▸ hq)
    · exact .inr (List.mem_cons_of_mem _ hr)

/-- The packet that moves next can make its move. -/
theorem canMove_of_nextPkt {b : Block} {src : MeshSrc} {dst : TeamId} {sel : MBody → Bool} {m : MPkt}
    (h : nextPkt b src dst sel = some m) : canMove b m = true := by
  unfold nextPkt at h
  have hchoice := mem_of_foldl_choice _ (fun a q => by
    cases a with
    | none => exact .inl rfl
    | some z =>
      dsimp only
      split
      · exact .inl rfl
      · exact .inr rfl) _ none m h
  rcases hchoice with h | h
  · cases h
  · have hm := (List.mem_filter.1 h).2
    rw [Bool.and_eq_true] at hm
    exact hm.2

/-- A packet that can move on the mesh, and is not at its destination yet, has room in the next input (R64). -/
theorem nextRoom_pos {b : Block} {m : MPkt} (h : canMove b m = true) (hp : m.port = false) (ht : m.there = false) : 0 < nextRoom b m := by
  simp only [canMove, hp, ht, Bool.false_eq_true, if_false, Bool.false_or, Bool.and_eq_true, decide_eq_true_eq] at h
  exact h.2

/-! ### One hop (R64) -/

theorem spread_length (room : Nat → Nat) (i n : Nat) : (spread room i n).length = i + 1 := by
  induction i generalizing n with
  | zero => rfl
  | succ i ih => rw [spread, List.length_append, ih, List.length_singleton]

/-- No flit is lost or made as a packet spreads. -/
theorem spread_sum (room : Nat → Nat) (i n : Nat) : (spread room i n).sum = n := by
  induction i generalizing n with
  | zero => simp [spread]
  | succ i ih =>
    rw [spread, List.sum_append, ih, List.sum_singleton]
    omega

theorem foldl_max_le (l : List Nat) (a n : Nat) (ha : a ≤ n) (h : ∀ e ∈ l, e ≤ n) : l.foldl max a ≤ n := by
  induction l generalizing a with
  | nil => exact ha
  | cons e r ih =>
    exact ih (max a e) (Nat.max_le.2 ⟨ha, h e (List.mem_cons_self ..)⟩) (fun f hf => h f (List.mem_cons_of_mem _ hf))

/-- The head of a packet is at the last place that holds a flit. -/
theorem head_of_last (m : MPkt) (l : List Nat) (x j : Nat) (h : m.flits = l ++ [x] ++ List.replicate j 0) (hx : x ≠ 0) : m.head = l.length := by
  have hempty : ((List.replicate j 0).zipIdx (l.length + 1)).filter (fun e : Nat × Nat => decide (e.1 ≠ 0)) = [] := by
    rw [List.filter_eq_nil_iff]
    intro e he
    have := List.eq_of_mem_replicate (List.fst_mem_of_mem_zipIdx he)
    simp [this]
  have hbefore : ((l.zipIdx.filter (fun e => decide (e.1 ≠ 0))).map (·.2)).foldl max 0 ≤ l.length := by
    refine foldl_max_le _ 0 _ (Nat.zero_le _) (fun i hi => ?_)
    obtain ⟨e, he, rfl⟩ := List.mem_map.1 hi
    have := List.snd_lt_of_mem_zipIdx (List.mem_filter.1 he).1
    omega
  unfold MPkt.head
  rw [h, List.zipIdx_append, List.zipIdx_append, List.filter_append, List.filter_append, List.length_append, List.length_singleton,
    Nat.zero_add, Nat.zero_add, hempty, List.append_nil, List.zipIdx_singleton,
    List.filter_cons_of_pos (by simpa using hx), List.filter_nil]
  simp only [List.map_append, List.map_cons, List.map_nil, List.foldl_append,
    List.foldl_cons, List.foldl_nil]
  exact Nat.max_eq_right hbefore

/-- What a hop leaves: the flits that went into the next input, before them those that followed, and none beyond. -/
theorem forward_flits (b : Block) (m : MPkt) : ∃ room, (m.forward b).flits =
    spread room m.head (m.flits.sum - min m.flits.sum (nextRoom b m)) ++ [min m.flits.sum (nextRoom b m)] ++
      List.replicate (m.way.length - m.head - 2) 0 := by
  unfold MPkt.forward
  dsimp only
  rw [spread, if_pos rfl]
  exact ⟨_, rfl⟩

/-- A hop moves the head one place on, keeps the number of flits, and fills the next input no further than it has room. -/
theorem forward_hops (b : Block) (m : MPkt) (hflits : 0 < m.flits.sum) (hroom : 0 < nextRoom b m) :
    (m.forward b).head = m.head + 1 ∧ (m.forward b).flits.sum = m.flits.sum ∧ (m.forward b).flits.getD (m.head + 1) 0 ≤ nextRoom b m := by
  obtain ⟨room, hf⟩ := forward_flits b m
  have hlen := spread_length room m.head (m.flits.sum - min m.flits.sum (nextRoom b m))
  refine ⟨?_, ?_, ?_⟩
  · rw [head_of_last _ _ _ _ hf (by omega), hlen]
  · rw [hf, List.sum_append, List.sum_append, spread_sum, List.sum_singleton, List.sum_replicate_nat, Nat.mul_zero]
    omega
  · rw [hf, List.append_assoc, List.getD_eq_getElem?_getD, List.getElem?_append_right (by omega), hlen, Nat.sub_self]
    exact Nat.min_le_right _ _

end Sys2Proof.Machine
end

section
/-! SUPPORT. What a mesh packet does as it moves, and where it arrives (R62, R63, R69, R73, R183). -/

namespace Sys2Proof.Machine

/-! ### The moves of a packet (R62 to R69) -/

section
variable {b : Block} {src : MeshSrc} {dst : TeamId} {sel : MBody → Bool} {m : MPkt}

/-- A paddock that runs discards no packet (R232). -/
theorem discards_of_inPad {q : Nat} (h : InPad b (teamKey dst) q) : discards b dst = false := by
  obtain ⟨hpad, hruns⟩ := h
  unfold discards
  rw [hpad]
  dsimp only
  rw [hruns]
  rfl

/-- A packet that its router grants an output, and that goes back into the mesh changed. -/
theorem inject_noteGrant (b : Block) (m n : MPkt) : inject (takeOut (noteGrant b m) m) n =
    { b with die := { b.die with mesh := b.die.mesh.erase m ++ [n], grants := grantsAfter b m } } := by
  simp only [inject, takeOut, noteGrant, grantsAfter]

/-- A packet that a cistern port has served, and what it sends. -/
theorem inject_takeOut (b : Block) (m n : MPkt) :
    inject (takeOut b m) n = { b with die := { b.die with mesh := b.die.mesh.erase m ++ [n] } } := by
  simp only [inject, takeOut]

/-- A packet on its way hops. -/
theorem movePkt_hop (eff : Block → MPkt → Block) (h : nextPkt b src dst sel = some m) (hp : m.port = false) (ht : m.there = false) :
    movePkt src dst .good sel eff b = inject (takeOut (noteGrant b m) m) (m.forward b) := by
  simp only [movePkt, h, hp, ht, linkCheck, Bool.false_eq_true, if_false, Bool.not_false, if_true]
  rfl

/-- A packet whose flit holds a double-bit error is lost, with a report of the team that received it (R69). -/
theorem movePkt_lost (eff : Block → MPkt → Block) (h : nextPkt b src dst sel = some m) (hp : m.port = false) :
    movePkt src dst .double sel eff b =
      let k := if m.there then teamKey dst else m.way.getD (m.head + 1) 0
      raise (takeOut (noteGrant b m) m) (teamSource b k) contained (placeD0 b (64 * k)) 0 0 0 (unitOf b k) := by
  simp only [movePkt, h, hp, linkCheck, Bool.false_eq_true, if_false]
  rfl

/-- Beside the mesh, its grants and the report, a lost packet leaves everything as it was. -/
theorem lost_rest (b : Block) (m : MPkt) (src cls : Nat) (d0 d1 d2 d3 : Word) (u : FUnit) :
    let c := raise (takeOut (noteGrant b m) m) src cls d0 d1 d2 d3 u
    { c with reports := b.reports, die := { c.die with mesh := b.die.mesh, grants := b.die.grants } } = b := by
  simp only [raise, takeOut, noteGrant]

/-- A packet for a cistern leaves the mesh and waits for the port (R51, R195). -/
theorem movePkt_wait (eff : Block → MPkt → Block) (h : nextPkt b src dst sel = some m) (hp : m.port = false) (ht : m.there = true)
    (hd : discards b dst = false) (hc : m.body.port.isSome = true) :
    movePkt src dst .good sel eff b = inject (takeOut (noteGrant b m) m) { m with flits := [], port := true } := by
  have hd' : discards (noteGrant b m) dst = false := hd
  simp only [movePkt, h, hp, ht, linkCheck, hd', hc, Bool.false_eq_true, if_false, Bool.not_true, if_true]

/-- A packet that addresses no cistern has its effect where it leaves the mesh. -/
theorem movePkt_arrive (eff : Block → MPkt → Block) (h : nextPkt b src dst sel = some m) (hp : m.port = false) (ht : m.there = true)
    (hd : discards b dst = false) (hc : m.body.port.isSome = false) :
    movePkt src dst .good sel eff b = eff (takeOut (noteGrant b m) m) m := by
  have hd' : discards (noteGrant b m) dst = false := hd
  simp only [movePkt, h, hp, ht, linkCheck, hd', hc, Bool.false_eq_true, if_false, Bool.not_true]

/-- A packet at a cistern port has its effect there. -/
theorem movePkt_serve (eff : Block → MPkt → Block) (e : Ecc) (h : nextPkt b src dst sel = some m) (hp : m.port = true)
    (hd : discards b dst = false) : movePkt src dst e sel eff b = eff (takeOut b m) m := by
  simp only [movePkt, h, hp, hd, Bool.false_eq_true, if_false, if_true]

end

/-! ### What a packet that leaves the mesh leaves behind -/

/-- The packet has left the mesh by the grant of its router, and nothing else has changed. -/
def LeftMesh (b c : Block) (m : MPkt) : Prop :=
  c.die.mesh = b.die.mesh.erase m ∧ c.die.grants = grantsAfter b m ∧
  { c with die := { c.die with mesh := b.die.mesh, grants := b.die.grants } } = b

theorem leftMesh_takeOut (b : Block) (m : MPkt) : LeftMesh b (takeOut (noteGrant b m) m) m :=
  ⟨rfl, rfl, by simp only [takeOut, noteGrant]⟩

theorem LeftMesh.coreGet {b c : Block} {m : MPkt} (h : LeftMesh b c m) (k : Nat) : coreGet c k = coreGet b k := by
  obtain ⟨-, -, hrest⟩ := h
  rw [← hrest]; rfl

theorem LeftMesh.counters {b c : Block} {m : MPkt} (h : LeftMesh b c m) :
    c.die.ctr = b.die.ctr ∧ c.die.ctrErr = b.die.ctrErr ∧ c.die.waiters = b.die.waiters := by
  obtain ⟨-, -, hrest⟩ := h
  exact ⟨congrArg (·.die.ctr) hrest, congrArg (·.die.ctrErr) hrest, congrArg (·.die.waiters) hrest⟩

/-- A packet that then changes cores alone. -/
theorem LeftMesh.of_cores {b c d : Block} {m : MPkt} (h : LeftMesh b c m)
    (hd : { d with die := { d.die with cores := c.die.cores } } = c) : d.die.mesh = b.die.mesh.erase m ∧ d.die.grants = grantsAfter b m ∧
      { d with die := { d.die with mesh := b.die.mesh, grants := b.die.grants, cores := b.die.cores } } = b := by
  obtain ⟨hmesh, hgrants, hrest⟩ := h
  refine ⟨(congrArg (·.die.mesh) hd).trans hmesh, (congrArg (·.die.grants) hd).trans hgrants, ?_⟩
  have hd' := congrArg (fun e : Block =>
    { e with die := { e.die with mesh := b.die.mesh, grants := b.die.grants, cores := b.die.cores } }) hd
  exact hd'.trans (congrArg (fun e : Block => { e with die := { e.die with cores := b.die.cores } }) hrest)

/-- A packet that then changes counters alone. -/
theorem LeftMesh.of_counters {b c d : Block} {m : MPkt} (h : LeftMesh b c m)
    (hd : { d with die := { d.die with ctr := c.die.ctr, ctrErr := c.die.ctrErr } } = c) :
    d.die.mesh = b.die.mesh.erase m ∧ d.die.grants = grantsAfter b m ∧ { d with die := { d.die with
      mesh := b.die.mesh, grants := b.die.grants, ctr := b.die.ctr, ctrErr := b.die.ctrErr } } = b := by
  obtain ⟨hmesh, hgrants, hrest⟩ := h
  refine ⟨(congrArg (·.die.mesh) hd).trans hmesh, (congrArg (·.die.grants) hd).trans hgrants, ?_⟩
  have hd' := congrArg (fun e : Block => { e with die := { e.die with
    mesh := b.die.mesh, grants := b.die.grants, ctr := b.die.ctr, ctrErr := b.die.ctrErr } }) hd
  exact hd'.trans (congrArg (fun e : Block => { e with die := { e.die with ctr := b.die.ctr, ctrErr := b.die.ctrErr } }) hrest)

/-! ### The rows of the packets (R62, R183) -/

/-- The command of the row by which a packet body travels. -/
def MBody.row (y : MBody) (src : MeshSrc) (dst : TeamId) : Ecc → Instr :=
  [Instr.meshRemoteWrite, .meshRemoteReadRequest, .meshReadResponse, .meshWriteAck, .semaphoreOperationPacket].getD
    y.kind .meshRemoteWrite src dst

/-- What the body of a packet that core `k` of paddock `p` has sent does at its destination. -/
def arrived (k : CoreId) (dst : TeamId) (p : Nat) (b : Block) : MBody → Block
  | .write cx line data =>
    let c := remoteWrite b p (64 * teamKey dst + cx) line data
    if line + data.length ≤ 640 ∧ (coreGet c (64 * teamKey dst + cx)).wB ≤ line then
      inject c (packet (answerer dst cx) k.team p (.ack (coreKey k)))
    else c
  | .readReq cx line n thr back =>
    if 640 < line + n then remoteFault b 0x10A p (64 * teamKey dst + cx) line
    else
      match remoteLines (64 * teamKey dst + cx) n line b with
      | (c, some d) => inject c (packet (answerer dst cx) k.team p (.readResp d thr back))
      | (c, none) => c
  | .readResp d thr back => subOutstanding (deliverRead b thr back d) (thr / 4)
  | .ack ck => subOutstanding b ck
  | .sem op c n vid thr => applySem b op (teamKey dst) c n vid thr true

/-- Each row moves the packets of its kind, to the effect of their body. -/
theorem exec_row (y : MBody) (k : CoreId) (dst : TeamId) : ∃ sel eff,
    (∀ e s, exec (y.row (.core k) dst e) s = onBlk (movePkt (.core k) dst e sel eff) s) ∧
    (∀ z, sel z = decide (z.kind = y.kind)) ∧
    ∀ b m, m.src = .core k → m.body = y → eff b m = arrived k dst m.pad b y := by
  cases y <;> exact ⟨_, _, fun e s => rfl, fun z => by cases z <;> rfl, fun b m hs hb => by
    obtain ⟨_, _, _, _, _, _⟩ := m
    cases hs
    cases hb
    rfl⟩

/-! ### What each type of packet does (R62) -/

/-- The core of a team that answers. -/
theorem answerer_eq (dst : TeamId) (cx : Fin 64) : answerer dst cx.val = .core ⟨dst, cx⟩ := by
  unfold answerer
  congr 2
  exact Fin.ext (Nat.mod_eq_of_lt cx.isLt)

/-- A remote write that its cistern takes: its lines are written, and an acknowledgement sets out (R62, R73, R75). -/
theorem arrived_write (k : CoreId) (dst : TeamId) (p : Nat) (b : Block) (cx : Fin 64) (line : Nat) (data : List Line) (hl : line < 640)
    (hn : line + data.length ≤ 640) (hw : (coreGet b (64 * teamKey dst + cx)).wB ≤ line) :
    ∃ d, LinesWritten b d (64 * teamKey dst + cx) line data ∧
      arrived k dst p b (.write cx line data) = inject d (packet (.core ⟨dst, cx⟩) k.team p (.ack (coreKey k))) := by
  have hwritten := remoteWrite_lines b p (64 * teamKey dst + cx) line data hl hn hw
  refine ⟨_, hwritten, ?_⟩
  unfold arrived
  dsimp only
  rw [if_pos ⟨hn, by rw [hwritten.coreGet]; exact hw⟩, answerer_eq]

/-- A remote read of lines without errors: a response with the lines sets out (R62). -/
theorem arrived_readReq (k : CoreId) (dst : TeamId) (p : Nat) (b : Block) (cx : Fin 64) (line n thr : Nat) (back : ReadDest)
    (hn : line + n ≤ 640) (hc : ∀ i < n, CleanLine b (64 * teamKey dst + cx) (line + i)) :
    arrived k dst p b (.readReq cx line n thr back) = inject b (packet (.core ⟨dst, cx⟩) k.team p
      (.readResp ((List.range n).map (fun i => cline b (64 * teamKey dst + cx) (line + i))) thr back)) := by
  unfold arrived
  dsimp only
  rw [if_neg (by omega), remoteLines_clean _ n line b hc]
  dsimp only
  rw [answerer_eq]

theorem arrived_readResp (k : CoreId) (dst : TeamId) (p thr : Nat) (b : Block) (data : List Line) (back : ReadDest) :
    arrived k dst p b (.readResp data thr back) = subOutstanding (deliverRead b thr back data) (thr / 4) := rfl

theorem arrived_ack (k : CoreId) (dst : TeamId) (p ck : Nat) (b : Block) : arrived k dst p b (.ack ck) = subOutstanding b ck := rfl

theorem arrived_sem (k : CoreId) (dst : TeamId) (p c n vid thr : Nat) (op : SemOp) (b : Block) :
    arrived k dst p b (.sem op c n vid thr) = applySem b op (teamKey dst) c n vid thr true := rfl

/-- Each core after a line has come for a vector register of a thread: the register holds it and awaits nothing, and one request less
is outstanding (R62, R63, R168). -/
theorem coreGet_delivered (b : Block) (thr v j : Nat) (data : List Line) :
    coreGet (subOutstanding (deliverRead b thr (.vreg v) data) (thr / 4)) j = if j = thr / 4 then
      { (coreGet b (thr / 4)).wv v (data.headD 0) with
        await := (coreGet b (thr / 4)).await.erase (thr % 4, v), outstanding := (coreGet b (thr / 4)).outstanding - 1 }
      else coreGet b j := by
  simp only [deliverRead, coreGet_subOutstanding, coreGet_coreMod, if_true]
  split <;> rfl

/-- Beside the cores, nothing changes as a line comes for a vector register. -/
theorem delivered_rest (b : Block) (thr v : Nat) (data : List Line) :
    let c := subOutstanding (deliverRead b thr (.vreg v) data) (thr / 4)
    { c with die := { c.die with cores := b.die.cores } } = b := by
  simp only [subOutstanding, deliverRead, coreMod, corePut]

/-! ### An add that serves no wait (R172, R187) -/

/-- Waiters of other counters are kept as they are. -/
theorem foldl_serveOne_others (team c : Nat) (l : List Waiter) (z : Served) (h : ∀ w ∈ l, ¬(w.team = team ∧ w.ctr = c)) :
    l.foldl (serveOne team c) z = { z with kept := z.kept ++ l } := by
  induction l generalizing z with
  | nil => rw [List.append_nil]; rfl
  | cons w r ih =>
    rw [List.foldl_cons, serveOne, if_neg (h w (List.mem_cons_self ..)), ih _ (fun v hv => h v (List.mem_cons_of_mem _ hv)),
      List.append_assoc]
    rfl

/-- The service of a counter for which no thread waits. -/
theorem serve_none (b : Block) (team c : Nat) (h : ∀ w ∈ b.die.waiters, ¬(w.team = team ∧ w.ctr = c)) :
    serve b team c = { b with die := { b.die with ctr := tput 0 b.die.ctr (512 * team + c) (ctrGet b team c) } } := by
  unfold serve
  rw [foldl_serveOne_others team c _ _ h]
  rfl

/-- An add to a sound counter for which no thread waits, without overflow: the counter and its check bits are stored, and nothing
else. -/
theorem applySem_sadd (b : Block) (team c n vid thr : Nat) (remote : Bool) (he : tget 0 b.die.ctrErr (512 * team + c) = 0)
    (hw : ∀ w ∈ b.die.waiters, ¬(w.team = team ∧ w.ctr = c)) (hv : ctrGet b team c + n ≤ 16777215) :
    let d := applySem b .sadd team c n vid thr remote
    (∀ j, tget 0 d.die.ctr j = if j = 512 * team + c then ctrGet b team c + n else tget 0 b.die.ctr j) ∧
    { d with die := { d.die with ctr := b.die.ctr, ctrErr := b.die.ctrErr } } = b := by
  have hnew : ctrGet (ctrPut b team c (ctrGet b team c + n)) team c = ctrGet b team c + n := tget_tput_same ..
  have hd : applySem b .sadd team c n vid thr remote = serve (ctrPut b team c (ctrGet b team c + n)) team c := by
    unfold applySem ctrCheck
    dsimp only
    rw [if_pos he]
    dsimp only
    rw [if_pos hv]
  rw [serve_none (ctrPut b team c (ctrGet b team c + n)) team c hw, hnew] at hd
  intro d
  have hd' : d = _ := hd
  rw [hd']
  refine ⟨fun j => ?_, rfl⟩
  refine (tget_tput ..).trans ?_
  split
  · rfl
  · rename_i hj
    exact tget_tput_ne _ _ _ _ _ hj

/-! ### The statement -/

/-- Settles O23: the routes by their two stretches, and one case for each move and each type of packet.  One move for each command and
the wait for the port are log 36, the grant that the move notes log 115. -/
theorem meshArrivals : Obligations.MeshArrivals := by
  unfold Obligations.MeshArrivals
  refine ⟨fun a d => ⟨meshRoute_length a d, meshRoute_row a d, meshRoute_col a d⟩, ?_⟩
  intro k dst s p q y flits port hpad m go rest hmoves
  obtain ⟨sel, eff, hexec, hsel, heff⟩ := exec_row y k dst
  have hnext : nextPkt s.blk (.core k) dst sel = some m := by
    rw [show sel = fun z => decide (z.kind = y.kind) from funext hsel]
    exact hmoves
  have hruns := discards_of_inPad hpad
  have hleft := leftMesh_takeOut s.blk m
  have heff' : ∀ b, eff b m = arrived k dst p b y := fun b => heff b m rfl rfl
  refine ⟨?hop, ?lost, ?wait, ?write, ?readReq, ?readResp, ?ack, ?sem⟩
  case hop =>
    intro hport hthere hflits
    obtain ⟨hhead, hsum, hroom⟩ := forward_hops s.blk m hflits (nextRoom_pos (canMove_of_nextPkt hnext) hport hthere)
    refine effect_onBlk (hexec .good s) ?_
    rw [movePkt_hop eff hnext hport hthere, inject_noteGrant]
    exact ⟨_, rfl, hhead, hsum, hroom⟩
  case lost =>
    intro hport
    refine effect_onBlk (hexec .double s) ?_
    rw [movePkt_lost eff hnext hport]
    exact ⟨rfl, ⟨_, rfl, rfl, rfl⟩, lost_rest s.blk m _ _ _ _ _ _ _⟩
  case wait =>
    intro hport hthere hkind
    have hc : m.body.port.isSome = true := by
      show y.port.isSome = true
      revert hkind
      cases y <;> simp [MBody.kind, MBody.port]
    refine effect_onBlk (hexec .good s) ?_
    rw [movePkt_wait eff hnext hport hthere hruns hc, inject_noteGrant]
  case write =>
    rintro hport cx line data rfl hl hn hw
    obtain ⟨d, hwritten, hd⟩ := arrived_write k dst p (takeOut s.blk m) cx line data hl hn hw
    refine effect_onBlk (hexec .good s) ?_
    rw [movePkt_serve eff .good hnext hport hruns, heff', hd]
    obtain ⟨hbyte, -, hrest⟩ := hwritten
    refine ⟨?_, hbyte, ?_⟩
    · exact congrArg (fun l => l ++ [packet (.core ⟨dst, cx⟩) k.team p (.ack (coreKey k))]) (congrArg (fun b : Block => b.die.mesh) hrest)
    · exact congrArg (fun b : Block => { b with die := { b.die with mesh := s.blk.die.mesh } }) hrest
  case readReq =>
    rintro hport cx line n thr back rfl hn hc
    refine effect_onBlk (hexec .good s) ?_
    rw [movePkt_serve eff .good hnext hport hruns, heff', arrived_readReq k dst p (takeOut s.blk m) cx line n thr back hn hc,
      inject_takeOut]
    rfl
  case readResp =>
    rintro hport hthere data thr v rfl
    have hcore := fun j => coreGet_delivered (takeOut (noteGrant s.blk m) m) thr v j data
    obtain ⟨hmesh, hgrants, hrest⟩ := hleft.of_cores (delivered_rest _ thr v data)
    simp only [hleft.coreGet] at hcore
    refine effect_onBlk (hexec .good s) ?_
    rw [movePkt_arrive eff hnext hport hthere hruns rfl, heff', arrived_readResp]
    exact ⟨hmesh, hgrants, fun j hj => (hcore j).trans (if_neg hj), (hcore _).trans (if_pos rfl), hrest⟩
  case ack =>
    rintro hport hthere ck rfl
    have hcore := coreGet_subOutstanding (takeOut (noteGrant s.blk m) m) ck
    obtain ⟨hmesh, hgrants, hrest⟩ := hleft.of_cores (subOutstanding_rest _ ck)
    simp only [hleft.coreGet] at hcore
    refine effect_onBlk (hexec .good s) ?_
    rw [movePkt_arrive eff hnext hport hthere hruns rfl, heff', arrived_ack]
    exact ⟨hmesh, hgrants, fun j hj => (hcore j).trans (if_neg hj), (hcore _).trans (if_pos rfl), hrest⟩
  case sem =>
    rintro hport hthere ctr n vid thr rfl hctr herr hwait hv
    obtain ⟨hctrEq, herrEq, hwaitEq⟩ := hleft.counters
    rw [← herrEq] at herr
    rw [← hwaitEq] at hwait
    rw [ctrGet, ← hctrEq] at hv
    obtain ⟨hcount, hctrs⟩ := applySem_sadd (takeOut (noteGrant s.blk m) m) (teamKey dst) ctr n vid thr true herr hwait hv
    simp only [ctrGet, hctrEq] at hcount
    obtain ⟨hmesh, hgrants, hrest⟩ := hleft.of_counters hctrs
    refine effect_onBlk (hexec .good s) ?_
    rw [movePkt_arrive eff hnext hport hthere hruns rfl, heff', arrived_sem]
    refine ⟨hmesh, hgrants, fun j i hi => ?_, hrest⟩
    rw [ctrGet, hcount]
    exact ite_congr (propext (by omega)) (fun _ => rfl) (fun _ => rfl)

end Sys2Proof.Machine
end
